-- ==== Sys2Proof/Word.lean ====
section
/-!
DEFINITION. The word types of the RLE codec core (spec/00_scope.md R5 to R8).
Every quantity is unsigned and bit 0 is the least significant bit (R7).
-/

namespace Sys2Proof

/-- A stream element: "8-bit values (0–255)" (R5 `BYTE_W`, R7). -/
abbrev Byte := BitVec 8

/-- The encoder's count, `ENC_CNT_W = 9` bits (R6, R23). -/
abbrev Count := BitVec 9

/-- A byte stream: "an ordered, finite sequence of 8-bit values" (R8). -/
abbrev Stream := List Byte

/-- Format `CMD`, 4 bits: `mode`, `src_ok`, `snk_ok` (R98). -/
abbrev CmdWord := BitVec 4

/-- Format `TOK`, 10 bits: `kind`, `data` (R99). -/
abbrev TokWord := BitVec 10

/-- Format `WRESP`, 1 bit: `snk_fail` (R100). -/
abbrev WrespWord := BitVec 1

/-- Format `WARN`, 2 bits: `warn_code` (R102). -/
abbrev WarnWord := BitVec 2

/-- Format `STATUS`, 6 bits: `busy`, `done`, `outcome` (R101). -/
abbrev StatusWord := BitVec 6

end Sys2Proof
end

