-- ==== Sys2Proof/Config.lean ====
section
/-!
DEFINITION. The parameters the hardware fixes (spec/00_scope.md R5, R6) and the values the spec
leaves unspecified, as constants without a body.
-/

namespace Sys2Proof.Config

/-- `MAX_RUN`: the cap on a run and the largest count (R5, R120). -/
def maxRun : Nat := 255

/-- `MIN_RUN`: the smallest count the encoder emits (R5, R120). -/
def minRun : Nat := 1

/-- `RECORD_BYTES`: bytes of an encoded pair (R5, R106). -/
def recordBytes : Nat := 2

/-- `COUNT_OFFSET`: the place of `count` in a record (R5, R91). -/
def countOffset : Nat := 0

/-- `VALUE_OFFSET`: the place of `value` in a record (R5, R91). -/
def valueOffset : Nat := 1

/-- `cmd_mode` of `COMPRESS` (R98). -/
def modeCompress : BitVec 2 := 0b01#2

/-- `cmd_mode` of `DECOMPRESS` (R98). -/
def modeDecompress : BitVec 2 := 0b10#2

/-- FREE VALUE. `ENC.val` after the `n`-th assertion of `rst`: "become unspecified" (R260; log 2). -/
opaque encValAfterRst : Nat → Byte

/-- FREE VALUE. `ENC.cnt` after the `n`-th assertion of `rst` (R260; log 2). -/
opaque encCntAfterRst : Nat → Count

/-- FREE VALUE. `ENC.pend_b` after the `n`-th assertion of `rst` (R260; log 2). -/
opaque encPendBAfterRst : Nat → Byte

/-- FREE VALUE. `DEC.cnt` after the `n`-th assertion of `rst` (R260; log 2). -/
opaque decCntAfterRst : Nat → Byte

/-- FREE VALUE. `DEC.val` after the `n`-th assertion of `rst` (R260; log 2). -/
opaque decValAfterRst : Nat → Byte

/-- FREE VALUE. `inc(c)` outside `1..254`: "never used and a model need not define it" (R123; log 3). -/
opaque incOutside : Count → Count

/-- FREE VALUE. `dec(0)`: "is never computed" (R124; log 3). -/
opaque decOfZero : Byte

end Sys2Proof.Config
end

