-- ==== Sys2Proof/Syntax.lean ====
section
/-!
DEFINITION. The words the core takes and drives, one constructor of `Instr` per row of
spec/opcode_table.json (23 rows), and the names those words carry.
-/

namespace Sys2Proof

/-- The outcome codes of spec/60_exceptions.md R220. -/
inductive OpOutcome where
  /-- `NONE`: reset, or an operation is running. -/
  | noOutcome
  /-- `OK`: success (R222). -/
  | ok
  /-- `OK_EMPTY`: the encoder's "nothing to do" success (R223). -/
  | okEmpty
  /-- `END_TRUNCATED`: warning end (R224). -/
  | endTruncated
  /-- `ERR_READ`: fatal (R225). -/
  | errRead
  /-- `ERR_WRITE`: fatal (R226). -/
  | errWrite
  /-- `ERR_OPEN_IN`: fatal (R227). -/
  | errOpenIn
  /-- `ERR_OPEN_OUT`: fatal (R228). -/
  | errOpenOut
  /-- `ERR_MODE`: fatal (R229). -/
  | errMode
  /-- `FAULT_BOUNDS`: the bounds checker's fault (R230). -/
  | faultBounds
  deriving DecidableEq, Repr

/-- The two warnings (R231 to R233). -/
inductive Warning where
  /-- `ZERO_COUNT`, code `0b01` (R232). -/
  | zeroCount
  /-- `TRUNCATED`, code `0b10` (R233). -/
  | truncated
  deriving DecidableEq, Repr

/-- What one `SrcRead()` returns (R62). -/
inductive Token where
  /-- `DATA(b)`: the next byte of the stream. -/
  | data (b : Byte)
  /-- `EOS`: the stream has ended cleanly. -/
  | eos
  /-- `ERR`: the underlying read failed. -/
  | err
  deriving DecidableEq, Repr

/-- One constructor per row of spec/opcode_table.json. Bits the row does not examine are kept as
fields, so that an encoding loses nothing. -/
inductive Instr where
  /-- `ENCODE`, `CMD` `0111` (R204). -/
  | encode
  /-- `DECODE`, `CMD` `1011` (R205). -/
  | decode
  /-- `BADMODE0`, `CMD` `00ss` (R201). -/
  | badmode0 (srcOk snkOk : Bool)
  /-- `BADMODE3`, `CMD` `11ss` (R201). -/
  | badmode3 (srcOk snkOk : Bool)
  /-- `ENCODE_NOSRC`, `CMD` `010s` (R202). -/
  | encodeNosrc (snkOk : Bool)
  /-- `DECODE_NOSRC`, `CMD` `100s` (R202). -/
  | decodeNosrc (snkOk : Bool)
  /-- `ENCODE_NOSNK`, `CMD` `0110` (R203). -/
  | encodeNosnk
  /-- `DECODE_NOSNK`, `CMD` `1010` (R203). -/
  | decodeNosnk
  /-- `ZRUN`, `PAIR` with `count == 0` (R96, R177). -/
  | zrun (v : Byte)
  /-- `RUN`, `PAIR` with `count != 0` (R96, R176). -/
  | run (c v : Byte)
  /-- `END`, token `EOS` at a record boundary; `ign` are the ignored data bits (R96, R174). -/
  | endRec (ign : BitVec 8)
  /-- `FAIL`, token `ERR` at a record boundary; `ign` are the nine unexamined bits (R96, R175). -/
  | failRec (ign : BitVec 9)
  /-- `HALF`, a lone byte then `EOS` (R96, R178). -/
  | halfRec (c : Byte) (ign : BitVec 8)
  /-- `BREAK`, a lone byte then `ERR` (R96, R179). -/
  | breakRec (c : Byte) (ign : BitVec 9)
  /-- `TOK_DATA`, `TOK` kind `0b00` (R99). -/
  | tokData (d : Byte)
  /-- `TOK_EOS`, `TOK` kind `0b01` (R99). -/
  | tokEos (ign : BitVec 8)
  /-- `TOK_ERR`, `TOK` kind `0b10` (R99). -/
  | tokErr (ign : BitVec 8)
  /-- `TOK_RSVD`, `TOK` kind `0b11`, decoded as `ERR` (R99). -/
  | tokRsvd (ign : BitVec 8)
  /-- `WRESP_OK`, answer `0` (R100). -/
  | wrespOk
  /-- `WRESP_FAIL`, answer `1` (R100). -/
  | wrespFail
  /-- `WARN_ZERO_COUNT`, code `01` (R102, R232). -/
  | warnZeroCount
  /-- `WARN_TRUNCATED`, code `10` (R102, R233). -/
  | warnTruncated
  /-- `STATUS`, `bdoooo` (R101). -/
  | status (busy done : Bool) (outcome : OpOutcome)
  deriving DecidableEq, Repr

end Sys2Proof
end

