-- ==== Sys2Proof/WellFormed.lean ====
section
/-!
DEFINITION. Which terms of `Instr` stand for a word of the hardware.
-/

namespace Sys2Proof

/-- Two checks: a `RUN` has a count other than zero (R96: "every PAIR word that is not ZRUN"), and
`busy` and `done` of a status word "are never both `1`" (R34). Every other term stands for a word. -/
def Instr.wf : Instr → Bool
  | .encode => true
  | .decode => true
  | .badmode0 _ _ => true
  | .badmode3 _ _ => true
  | .encodeNosrc _ => true
  | .decodeNosrc _ => true
  | .encodeNosnk => true
  | .decodeNosnk => true
  | .zrun _ => true
  | .run c _ => c != 0#8
  | .endRec _ => true
  | .failRec _ => true
  | .halfRec _ _ => true
  | .breakRec _ _ => true
  | .tokData _ => true
  | .tokEos _ => true
  | .tokErr _ => true
  | .tokRsvd _ => true
  | .wrespOk => true
  | .wrespFail => true
  | .warnZeroCount => true
  | .warnTruncated => true
  | .status b d _ => !(b && d)

end Sys2Proof
end

