-- ==== Sys2Proof/Decode.lean ====
section
/-!
DEFINITION. Decoding and encoding (spec/30_encoding.md R90 to R102, spec/opcode_table.json).
A word's meaning depends on the port it crosses, so a decoder is chosen by the format; nothing in
a word names its format (R90).
-/

namespace Sys2Proof

/-- The formats of R90 and of the table's `format` column. -/
inductive Format where
  /-- `CMD`, 4 bits (R98). -/
  | cmd
  /-- `TOK`, 10 bits (R99). -/
  | tok
  /-- `TOK at a record boundary`, 10 bits: the forms `END`, `FAIL` (R96). -/
  | boundary
  /-- `PAIR`, 16 bits, word view `rec = {count, value}` (R91). -/
  | pair
  /-- `HALF byte then TOK`, 18 bits: the forms `HALF`, `BREAK` (R92, R96). -/
  | halfTok
  /-- `WRESP`, 1 bit (R100). -/
  | wresp
  /-- `WARN`, 2 bits (R102). -/
  | warn
  /-- `STATUS`, 6 bits (R101). -/
  | status
  deriving DecidableEq, Repr

/-- Length of a format in bits. -/
def Format.width : Format → Nat
  | .cmd => 4
  | .tok => 10
  | .boundary => 10
  | .pair => 16
  | .halfTok => 18
  | .wresp => 1
  | .warn => 2
  | .status => 6

/-- Why a word is no instruction of a format. -/
inductive Reject where
  /-- The number does not fit the format's width. -/
  | tooWide
  /-- An 18-bit group whose token is `DATA`: two data tokens are a `PAIR`, not `HALF` or `BREAK`. -/
  | notTruncated
  /-- `WARN` code `0b00` or `0b11`: "never driven" (R102). -/
  | unusedWarnCode
  /-- Outcome code `9..14`: "never driven" (R220). -/
  | unusedOutcomeCode
  /-- `busy` and `done` both `1`: never (R34). -/
  | busyAndDone
  deriving DecidableEq, Repr

/-- The numeric code of an outcome (R220). -/
def OpOutcome.code : OpOutcome → BitVec 4
  | .noOutcome => 0#4
  | .ok => 1#4
  | .okEmpty => 2#4
  | .endTruncated => 3#4
  | .errRead => 4#4
  | .errWrite => 5#4
  | .errOpenIn => 6#4
  | .errOpenOut => 7#4
  | .errMode => 8#4
  | .faultBounds => 15#4

/-- The outcome a code names; the codes `9..14` name none (R220). -/
def OpOutcome.ofCode (c : BitVec 4) : Option OpOutcome :=
  if c = 0#4 then some .noOutcome
  else if c = 1#4 then some .ok
  else if c = 2#4 then some .okEmpty
  else if c = 3#4 then some .endTruncated
  else if c = 4#4 then some .errRead
  else if c = 5#4 then some .errWrite
  else if c = 6#4 then some .errOpenIn
  else if c = 7#4 then some .errOpenOut
  else if c = 8#4 then some .errMode
  else if c = 15#4 then some .faultBounds
  else none

/-- The numeric code of a warning (R102). -/
def Warning.code : Warning → WarnWord
  | .zeroCount => 0b01#2
  | .truncated => 0b10#2

/-- A Bool as one bit. -/
def bit (b : Bool) : BitVec 1 := BitVec.ofBool b

/-- `tok[9:8]`, the token's kind (R99). -/
def TokWord.kind (t : TokWord) : BitVec 2 := t.extractLsb' 8 2

/-- `tok[7:0]`, the token's data bits (R99). -/
def TokWord.dataBits (t : TokWord) : Byte := t.extractLsb' 0 8

/-- The token a token word stands for: the total decode of R99. -/
def TokWord.token (t : TokWord) : Token :=
  if t.kind = 0b00#2 then .data t.dataBits
  else if t.kind = 0b01#2 then .eos
  else .err

/-- The table's rows of format `CMD` (R98): all sixteen words, each once. -/
def decodeCmd (w : CmdWord) : Instr :=
  let mode := w.extractLsb' 2 2
  let srcOk := w.getLsbD 1
  let snkOk := w.getLsbD 0
  if mode = 0b00#2 then .badmode0 srcOk snkOk
  else if mode = 0b11#2 then .badmode3 srcOk snkOk
  else if mode = Config.modeCompress then
    if srcOk then (if snkOk then .encode else .encodeNosnk) else .encodeNosrc snkOk
  else
    if srcOk then (if snkOk then .decode else .decodeNosnk) else .decodeNosrc snkOk

/-- The table's rows of format `TOK` (R99): all 1024 words. -/
def decodeTok (t : TokWord) : Instr :=
  if t.kind = 0b00#2 then .tokData t.dataBits
  else if t.kind = 0b01#2 then .tokEos t.dataBits
  else if t.kind = 0b10#2 then .tokErr t.dataBits
  else .tokRsvd t.dataBits

/-- A token word at a record boundary (R96): `EOS` is the form `END`, `ERR` (either of its two kinds)
the form `FAIL`; a `DATA` token is the first byte of a longer form and is read as a token. -/
def decodeBoundary (t : TokWord) : Instr :=
  if t.kind = 0b00#2 then .tokData t.dataBits
  else if t.kind = 0b01#2 then .endRec t.dataBits
  else .failRec (t.extractLsb' 0 9)

/-- The two rows of format `PAIR` (R91, R96): the count byte alone tells `ZRUN` from `RUN`. -/
def decodePair (r : BitVec 16) : Instr :=
  let count := r.extractLsb' 8 8
  let value := r.extractLsb' 0 8
  if count = 0#8 then .zrun value else .run count value

/-- A token word that follows the count byte `c` (R96): `RUN`, `ZRUN`, `HALF` or `BREAK`. -/
def decodeAfterCount (c : Byte) (t : TokWord) : Instr :=
  if t.kind = 0b00#2 then decodePair (c ++ t.dataBits)
  else if t.kind = 0b01#2 then .halfRec c t.dataBits
  else .breakRec c (t.extractLsb' 0 9)

/-- The rows `HALF` and `BREAK` as one 18-bit word, the byte above the token (log 5). -/
def decodeHalfTok (w : BitVec 18) : Except Reject Instr :=
  let c : Byte := w.extractLsb' 10 8
  let t : TokWord := w.extractLsb' 0 10
  if t.kind = 0b00#2 then .error .notTruncated else .ok (decodeAfterCount c t)

/-- The rows of format `WRESP` (R100). -/
def decodeWresp (w : WrespWord) : Instr :=
  if w = 0#1 then .wrespOk else .wrespFail

/-- The rows of format `WARN` (R102). -/
def decodeWarn (w : WarnWord) : Except Reject Instr :=
  if w = 0b01#2 then .ok .warnZeroCount
  else if w = 0b10#2 then .ok .warnTruncated
  else .error .unusedWarnCode

/-- The row `STATUS` (R101). -/
def decodeStatus (w : StatusWord) : Except Reject Instr :=
  let busy := w.getLsbD 5
  let done := w.getLsbD 4
  if busy && done then .error .busyAndDone
  else
    match OpOutcome.ofCode (w.extractLsb' 0 4) with
    | some o => .ok (.status busy done o)
    | none => .error .unusedOutcomeCode

/-- Decoding of a number that fits its format. -/
def decodeFitting (f : Format) (w : Nat) : Except Reject Instr :=
  match f with
  | .cmd => .ok (decodeCmd (BitVec.ofNat 4 w))
  | .tok => .ok (decodeTok (BitVec.ofNat 10 w))
  | .boundary => .ok (decodeBoundary (BitVec.ofNat 10 w))
  | .pair => .ok (decodePair (BitVec.ofNat 16 w))
  | .halfTok => decodeHalfTok (BitVec.ofNat 18 w)
  | .wresp => .ok (decodeWresp (BitVec.ofNat 1 w))
  | .warn => decodeWarn (BitVec.ofNat 2 w)
  | .status => decodeStatus (BitVec.ofNat 6 w)

/-- Decoding, total on every format and every number: an instruction, or a rejection by name. -/
def decode (f : Format) (w : Nat) : Except Reject Instr :=
  if w < 2 ^ f.width then decodeFitting f w else .error .tooWide

/-- The format of an instruction's row (the table's `format` column). -/
def Instr.format : Instr → Format
  | .encode => .cmd
  | .decode => .cmd
  | .badmode0 _ _ => .cmd
  | .badmode3 _ _ => .cmd
  | .encodeNosrc _ => .cmd
  | .decodeNosrc _ => .cmd
  | .encodeNosnk => .cmd
  | .decodeNosnk => .cmd
  | .zrun _ => .pair
  | .run _ _ => .pair
  | .endRec _ => .boundary
  | .failRec _ => .boundary
  | .halfRec _ _ => .halfTok
  | .breakRec _ _ => .halfTok
  | .tokData _ => .tok
  | .tokEos _ => .tok
  | .tokErr _ => .tok
  | .tokRsvd _ => .tok
  | .wrespOk => .wresp
  | .wrespFail => .wresp
  | .warnZeroCount => .warn
  | .warnTruncated => .warn
  | .status _ _ _ => .status

/-- The word of an instruction in its format, written from the table's `encoding` column. -/
def encode : Instr → Nat
  | .encode => 0b0111
  | .decode => 0b1011
  | .badmode0 a b => (0b00#2 ++ bit a ++ bit b).toNat
  | .badmode3 a b => (0b11#2 ++ bit a ++ bit b).toNat
  | .encodeNosrc b => (0b010#3 ++ bit b).toNat
  | .decodeNosrc b => (0b100#3 ++ bit b).toNat
  | .encodeNosnk => 0b0110
  | .decodeNosnk => 0b1010
  | .zrun v => (0x00#8 ++ v).toNat
  | .run c v => (c ++ v).toNat
  | .endRec ign => (0b01#2 ++ ign).toNat
  | .failRec ign => (0b1#1 ++ ign).toNat
  | .halfRec c ign => (c ++ 0b01#2 ++ ign).toNat
  | .breakRec c ign => (c ++ 0b1#1 ++ ign).toNat
  | .tokData d => (0b00#2 ++ d).toNat
  | .tokEos ign => (0b01#2 ++ ign).toNat
  | .tokErr ign => (0b10#2 ++ ign).toNat
  | .tokRsvd ign => (0b11#2 ++ ign).toNat
  | .wrespOk => 0
  | .wrespFail => 1
  | .warnZeroCount => 0b01
  | .warnTruncated => 0b10
  | .status b d o => (bit b ++ bit d ++ o.code).toNat

/-- The format under which the host's probe reads a row of `nbits` bits (log 6). The exact widths of
the table are unambiguous but for `TOK` and `TOK at a record boundary`, which share 10 bits; rounded
up to whole bytes, rows of different ports share a width, and one reading is chosen for each. -/
def tableFormat (nbits w : Nat) : Option Format :=
  match nbits with
  | 1 => some .wresp
  | 2 => some .warn
  | 4 => some .cmd
  | 6 => some .status
  | 8 => if w < 16 then some .cmd else some .status
  | 10 => some .tok
  | 16 =>
    if 0x300 ≤ w ∧ w < 0x400 then some .tok
    else if 0x100 ≤ w ∧ w < 0x300 then some .boundary
    else some .pair
  | 18 => some .halfTok
  | 24 => some .halfTok
  | _ => none

/-- The instruction the decoder reads from a row's bits. -/
def decodeTableWord (nbits w : Nat) : Option Instr :=
  match tableFormat nbits w with
  | none => none
  | some f =>
    match decode f w with
    | .ok i => some i
    | .error _ => none

end Sys2Proof
end

