-- ==== Sys2Proof/Machine/State.lean ====
section
/-!
DEFINITION. The state: the eleven registers of the core (spec/10_state.md R20), the state the
environment holds for it (R35), the offers standing on its input ports (R36), and the state after
reset (R38).
-/

namespace Sys2Proof.Machine

/-- Values of `CTL.st` (R30). -/
inductive CtlSt where
  | cIdle | cEnc | cDec | cDone
  deriving DecidableEq, Repr

/-- Values of `ENC.st` (R21). -/
inductive EncSt where
  | eIdle | eFirst | eHead | eScan | eEmitC | eEmitV
  deriving DecidableEq, Repr

/-- Values of `DEC.st` (R27). -/
inductive DecSt where
  | dIdle | dCnt | dVal | dExp
  deriving DecidableEq, Repr

/-- Values of `ENC.fin` (R26). -/
inductive InputEnd where
  | fNone | fEos | fErr
  deriving DecidableEq, Repr

/-- The ten reachable combinations of the three sequencers, by their fused names (R32). -/
inductive Phase where
  | idle | eFirst | eHead | eScan | eEmitC | eEmitV | dCnt | dVal | dExp | done
  deriving DecidableEq, Repr

/-- One `START` the host offers, with the streams it attaches for the operation (R263 steps 2, 3):
the command word, the token words the source will deliver, the answers the sink will give. -/
structure Launch where
  cmd : CmdWord
  src : List TokWord
  snk : List WrespWord
  deriving DecidableEq, Repr

/-- The machine. Registers first (R20), then what belongs to an execution and not to the core (R35),
then the input ports (R36), then the model's own counter of resets. -/
structure State where
  /-- `CTL.st` (R30). -/
  ctlSt : CtlSt
  /-- `CTL.outcome`, 4 bits (R31). -/
  ctlOutcome : OpOutcome
  /-- `ENC.st` (R21). -/
  encSt : EncSt
  /-- `ENC.val`, 8 bits (R22). -/
  encVal : Byte
  /-- `ENC.cnt`, 9 bits (R23). -/
  encCnt : Count
  /-- `ENC.pend_v`, 1 bit (R24). -/
  encPendV : Bool
  /-- `ENC.pend_b`, 8 bits (R25). -/
  encPendB : Byte
  /-- `ENC.fin` (R26). -/
  encFin : InputEnd
  /-- `DEC.st` (R27). -/
  decSt : DecSt
  /-- `DEC.cnt`, 8 bits (R28). -/
  decCnt : Byte
  /-- `DEC.val`, 8 bits (R29). -/
  decVal : Byte
  /-- `I`, the tokens delivered to the operation so far, oldest first (R35, R12). -/
  srcSeen : List Token
  /-- `I`, the token words the source has still to deliver (R35, R61). -/
  srcRest : List TokWord
  /-- `O`, the bytes acknowledged `OK` in the current operation (R35, R64). -/
  out : List Byte
  /-- `W`, the warnings raised in the current operation (R35, R231). -/
  warnLog : List Warning
  /-- The port `warn_valid`, `warn_code` in the step just taken (R36, R231). -/
  warnPulse : Option Warning
  /-- The sink port: the answers the sink has still to give, next first (R64, R100). -/
  snkAns : List WrespWord
  /-- The command port: the commands the host offers, next first (R200, R211). -/
  host : List Launch
  /-- The port `rst`: asserted or not (R36, R260). -/
  rst : Bool
  /-- The model's own: how often `rst` has been taken, the index of the free values (log 2). -/
  rstCount : Nat
  deriving DecidableEq, Repr

/-- Why the machine stops. -/
inductive Fault where
  /-- Raised by `step` and by every meaning in the 86 combinations of the sequencers that have no
  step rule: "a model that keeps three registers gives them no step (stuck)" (R32). Safe: no run
  from reset meets it. -/
  | noStepRule
  deriving DecidableEq, Repr

/-- Why the model gives no meaning. -/
inductive Refusal where
  /-- Raised only by an arm of `exec` whose instruction has no meaning yet; there is none. Safe. -/
  | notModelled (mnemonic : String)
  deriving DecidableEq, Repr

/-- The fused phase, or none for the 86 combinations without a step rule (R32). -/
def State.phase (s : State) : Option Phase :=
  match s.ctlSt, s.encSt, s.decSt with
  | .cIdle, .eIdle, .dIdle => some .idle
  | .cEnc, .eFirst, .dIdle => some .eFirst
  | .cEnc, .eHead, .dIdle => some .eHead
  | .cEnc, .eScan, .dIdle => some .eScan
  | .cEnc, .eEmitC, .dIdle => some .eEmitC
  | .cEnc, .eEmitV, .dIdle => some .eEmitV
  | .cDec, .eIdle, .dCnt => some .dCnt
  | .cDec, .eIdle, .dVal => some .dVal
  | .cDec, .eIdle, .dExp => some .dExp
  | .cDone, .eIdle, .dIdle => some .done
  | _, _, _ => none

/-- The machine right after reset (R38). The five data registers are "unspecified" there; zero is the
model's choice (log 1). Nothing is offered on any port. -/
def State.reset : State where
  ctlSt := .cIdle
  ctlOutcome := .noOutcome
  encSt := .eIdle
  encVal := 0#8
  encCnt := 0#9
  encPendV := false
  encPendB := 0#8
  encFin := .fNone
  decSt := .dIdle
  decCnt := 0#8
  decVal := 0#8
  srcSeen := []
  srcRest := []
  out := []
  warnLog := []
  warnPulse := none
  snkAns := []
  host := []
  rst := false
  rstCount := 0

end Sys2Proof.Machine
end

