-- ==== Sys2Proof/Machine/Operands.lean ====
section
/-!
DEFINITION. The shared framing and run-length bounds checker `FRM`: pure functions over bytes, counts
and streams (spec/40_framing_bounds.md R120 to R131). It has no state (R37).
-/

namespace Sys2Proof.Machine

/-- `len_ok(c)` on the unsigned value of an 8- or 9-bit count (R121). -/
def lenOk (c : Nat) : Bool := Config.minRun ≤ c && c ≤ Config.maxRun

/-- `at_cap(c)`, the clamp test (R122). -/
def atCap (c : Count) : Bool := c.toNat == Config.maxRun

/-- `inc(c)`: `c + 1` on `1..254`; outside, where no rule from reset applies it, a free value (R123;
log 3). -/
def inc (c : Count) : Count :=
  if 1 ≤ c.toNat ∧ c.toNat ≤ 254 then c + 1#9 else Config.incOutside c

/-- `dec(c)`: `c - 1` on `1..255`; `dec(0)` is a free value (R124; log 3). -/
def dec (c : Byte) : Byte :=
  if c = 0#8 then Config.decOfZero else c - 1#8

/-- `narrow8(c) = c[7:0]` (R125). -/
def narrow8 (c : Count) : Byte := c.extractLsb' 0 8

/-- `eq(a, b)` (R126). -/
def byteEq (a b : Byte) : Bool := a == b

/-- `is_zero(c)` (R127). -/
def isZero (c : Byte) : Bool := c == 0#8

/-- `pack(c, v)`: the count byte first (R129, R68). -/
def pack (c : Count) (v : Byte) : Stream := [narrow8 c, v]

/-- `unpack(b0, b1)`: count as an unsigned number, value (R130, R93, R94). -/
def unpack (b0 b1 : Byte) : Nat × Byte := (b0.toNat, b1)

/-- `rep(v, n)` (R131). -/
def rep (v : Byte) : Nat → Stream
  | 0 => []
  | n + 1 => v :: rep v n

/-- `runlen(v, T)` (R131). -/
def runlen (v : Byte) : Stream → Nat
  | [] => 0
  | t :: ts => if t = v then 1 + runlen v ts else 0

end Sys2Proof.Machine
end

