-- ==== Sys2Proof/Machine/Flags.lean ====
section
/-!
DEFINITION. What the core drives on its output ports: every output of the port table (spec/10_state.md
R34, R36) as a function of the state, and the status word (spec/30_encoding.md R101).
-/

namespace Sys2Proof.Machine

/-- `busy` (R34). -/
def busy (s : State) : Bool := s.ctlSt == .cEnc || s.ctlSt == .cDec

/-- `done` (R34). -/
def done (s : State) : Bool := s.ctlSt == .cDone

/-- `cmd_ready` (R36). -/
def cmdReady (s : State) : Bool := s.ctlSt == .cIdle || s.ctlSt == .cDone

/-- `src_ready`: `1` exactly in the states whose step rule calls `SrcRead()` (R36). -/
def srcReady (s : State) : Bool :=
  match s.phase with
  | some .eFirst => true
  | some .eHead => !s.encPendV
  | some .eScan => !atCap s.encCnt
  | some .dCnt => true
  | some .dVal => true
  | _ => false

/-- `snk_valid`: `1` exactly in the states whose step rule calls `SnkWrite` (R36). -/
def snkValid (s : State) : Bool :=
  match s.phase with
  | some .eEmitC => lenOk s.encCnt.toNat
  | some .eEmitV => true
  | some .dExp => true
  | _ => false

/-- `snk_data`: the byte offered while `snk_valid` (R36). -/
def snkData (s : State) : Option Byte :=
  if snkValid s then
    match s.phase with
    | some .eEmitC => some (narrow8 s.encCnt)
    | some .eEmitV => some s.encVal
    | some .dExp => some s.decVal
    | _ => none
  else none

/-- `warn_valid` of the step just taken (R36, R231). -/
def warnValid (s : State) : Bool := s.warnPulse.isSome

/-- `warn_code` of the step just taken, while `warn_valid` (R102). -/
def warnCode (s : State) : Option WarnWord := s.warnPulse.map Warning.code

/-- The status word `{busy, done, outcome}` (R101). -/
def statusWord (s : State) : StatusWord := bit (busy s) ++ bit (done s) ++ s.ctlOutcome.code

/-- The status word as the table's row `STATUS`. -/
def statusInstr (s : State) : Instr := .status (busy s) (done s) s.ctlOutcome

/-- What the next step of the core needs (R77, and the dispatch tables R142, R172, R200). -/
inductive Access where
  /-- A command transfer. -/
  | command
  /-- A `SrcRead()`. -/
  | source
  /-- A `SnkWrite(b)`. -/
  | sink
  /-- No transfer: R146, R150 or R157. -/
  | internal
  deriving DecidableEq, Repr

/-- The access of the step rule that applies in this state; none where no rule does (R32). -/
def access (s : State) : Option Access :=
  match s.phase with
  | none => none
  | some .idle => some .command
  | some .done => some .command
  | some .eFirst => some .source
  | some .eHead => if s.encPendV then some .internal else some .source
  | some .eScan => if atCap s.encCnt then some .internal else some .source
  | some .eEmitC => if lenOk s.encCnt.toNat then some .sink else some .internal
  | some .eEmitV => some .sink
  | some .dCnt => some .source
  | some .dVal => some .source
  | some .dExp => some .sink

end Sys2Proof.Machine
end

