-- ==== Sys2Proof/Machine/Ops.lean ====
section
/-!
DEFINITION. The operations the meanings share: ending an operation (`finish`, this hardware's taking of
an exception, spec/60_exceptions.md R239) and starting the next (its return, R242), warnings, commands,
the effect of a token and of a sink's answer by phase, the steps without an access, reset.
-/

namespace Sys2Proof.Machine

/-- `finish(o)`: taking a terminal outcome. It saves nothing and jumps nowhere (R206, R239). -/
def finish (o : OpOutcome) (s : State) : State :=
  { s with ctlOutcome := o, ctlSt := .cDone, encSt := .eIdle, decSt := .dIdle }

/-- `raise Warning(k)`: one entry of `W` and one pulse; no register of the core changes (R231). -/
def raiseWarning (k : Warning) (s : State) : State :=
  { s with warnLog := s.warnLog ++ [k], warnPulse := some k }

/-- What every accepted `START` does first: `O <- []`, `W <- []`, nothing consumed yet (R200, R35). -/
def beginOperation (s : State) : State :=
  { s with out := [], warnLog := [], srcSeen := [] }

/-- A `START` that passes its checks in mode `COMPRESS` (R204, R141). -/
def startEncode (s : State) : State :=
  { beginOperation s with
    ctlSt := .cEnc, ctlOutcome := .noOutcome, encSt := .eFirst, encPendV := false, encFin := .fNone }

/-- A `START` that passes its checks in mode `DECOMPRESS` (R205, R171). -/
def startDecode (s : State) : State :=
  { beginOperation s with ctlSt := .cDec, ctlOutcome := .noOutcome, decSt := .dCnt }

/-- A `START` that a check refuses: the operation begins and ends in one step (R200 to R203). -/
def refuseStart (o : OpOutcome) (s : State) : State := finish o (beginOperation s)

/-- Opening a run with the byte `b` (R143, R146, R147). -/
def openRun (b : Byte) (s : State) : State :=
  { s with encVal := b, encCnt := 1#9, encSt := .eScan }

/-- Closing the run in progress: its count byte is next (R150, R152 to R154). -/
def closeRun (s : State) : State := { s with encSt := .eEmitC }

/-- A byte acknowledged `OK` is appended to `O` (R64, R100). -/
def acknowledge (b : Byte) (s : State) : State := { s with out := s.out ++ [b] }

/-- The token's effect in `E_SCAN` below the cap (R151 to R154). -/
def scanToken (t : Token) (s : State) : State :=
  match t with
  | .data b =>
    if byteEq b s.encVal then { s with encCnt := inc s.encCnt }
    else closeRun { s with encPendV := true, encPendB := b }
  | .eos => closeRun { s with encFin := .fEos }
  | .err => closeRun { s with encFin := .fErr }

/-- The token's effect in `D_VAL` (R176 to R179). -/
def valueToken (t : Token) (s : State) : State :=
  match t with
  | .data b =>
    if isZero s.decCnt then { raiseWarning .zeroCount s with decVal := b, decSt := .dCnt }
    else { s with decVal := b, decSt := .dExp }
  | .eos => finish .ok s
  | .err => finish .endTruncated (raiseWarning .truncated s)

/-- What a source transfer of the token `t` does, by phase (R142, R172). Where the core makes no
`SrcRead()` no transfer happens and nothing changes (R78). -/
def takeToken (t : Token) (s : State) : State :=
  match s.phase with
  | some .eFirst =>
    match t with
    | .data b => openRun b s
    | .eos => finish .okEmpty s
    | .err => finish .errRead s
  | some .eHead =>
    if s.encPendV then s
    else
      match t with
      | .data b => openRun b s
      | .eos => finish .ok s
      | .err => finish .errRead s
  | some .eScan => if atCap s.encCnt then s else scanToken t s
  | some .dCnt =>
    match t with
    | .data b => { s with decCnt := b, decSt := .dVal }
    | .eos => finish .ok s
    | .err => finish .errRead s
  | some .dVal => valueToken t s
  | _ => s

/-- After the value byte of a run was acknowledged (R158). -/
def afterPair (s : State) : State :=
  match s.encFin with
  | .fEos => finish .ok s
  | .fErr => finish .errRead s
  | .fNone => { s with encSt := .eHead }

/-- After one copy of a decoded value was acknowledged (R180). -/
def countOff (s : State) : State :=
  { s with decCnt := dec s.decCnt, decSt := if dec s.decCnt = 0#8 then .dCnt else s.decSt }

/-- What the sink's answer `OK` to the offered byte does, by phase (R155, R158, R180). Where the core
offers no byte no transfer happens and nothing changes (R78). -/
def answerOk (s : State) : State :=
  match s.phase with
  | some .eEmitC =>
    if lenOk s.encCnt.toNat then { acknowledge (narrow8 s.encCnt) s with encSt := .eEmitV } else s
  | some .eEmitV => afterPair (acknowledge s.encVal s)
  | some .dExp => countOff (acknowledge s.decVal s)
  | _ => s

/-- What the sink's answer `FAIL` does: the operation ends with `ERR_WRITE` and `O` keeps what it has
(R156, R159, R181, R226). -/
def answerFail (s : State) : State := if snkValid s then finish .errWrite s else s

/-- The steps that make no access: the pending byte opens a run (R146), the clamp closes one (R150),
the bounds checker refuses a count (R157). -/
def internalStep (s : State) : State :=
  match s.phase with
  | some .eHead => if s.encPendV then { openRun s.encPendB s with encPendV := false } else s
  | some .eScan => if atCap s.encCnt then closeRun s else s
  | some .eEmitC => if lenOk s.encCnt.toNat then s else finish .faultBounds s
  | _ => s

/-- The act of reset (R260): the six registers of R38 take their values, the five data registers become
unspecified (free values, log 2), no transfer happens on any port, no warning is raised (R261). -/
def takeReset (s : State) : State :=
  { s with
    ctlSt := .cIdle, ctlOutcome := .noOutcome, encSt := .eIdle, encPendV := false, encFin := .fNone
    decSt := .dIdle
    encVal := Config.encValAfterRst s.rstCount
    encCnt := Config.encCntAfterRst s.rstCount
    encPendB := Config.encPendBAfterRst s.rstCount
    decCnt := Config.decCntAfterRst s.rstCount
    decVal := Config.decValAfterRst s.rstCount
    warnPulse := none
    rstCount := s.rstCount + 1 }

/-- A meaning applies where a step rule can: in the ten phases of R32. -/
def inPhase (s t : State) : Host.Outcome State Fault Refusal :=
  match s.phase with
  | some _ => .next t
  | none => .fault .noStepRule

/-- A command takes effect when the core is ready for one; while busy it is held off and has no effect
on the running operation (R200, R211). -/
def onCommand (f : State → State) (s : State) : Host.Outcome State Fault Refusal :=
  inPhase s (if cmdReady s then f s else s)

/-- A `PAIR` or `HALF` group completes when its count byte stands in `DEC.cnt` and the token that ends
the group is delivered in `D_VAL` (R96); otherwise this record is not the one being read. -/
def onRecord (c : Byte) (t : Token) (s : State) : Host.Outcome State Fault Refusal :=
  inPhase s (if s.phase = some .dVal ∧ s.decCnt = c then takeToken t s else s)

/-- A bare terminal is a form of its own at a record boundary, `D_CNT` (R96). -/
def onBoundary (t : Token) (s : State) : Host.Outcome State Fault Refusal :=
  inPhase s (if s.phase = some .dCnt then takeToken t s else s)

/-- A warning word is driven only by the decoder and only in `D_VAL` (R102, R177, R179, R231). -/
def onWarning (k : Warning) (s : State) : Host.Outcome State Fault Refusal :=
  inPhase s (if s.phase = some .dVal then raiseWarning k s else s)

end Sys2Proof.Machine
end

