-- ==== Sys2Proof/Machine/Commands.lean ====
section
/-!
DEFINITION. Meanings of the eight `CMD` rows: the values of the `START` command
(spec/43_command_status.md R200 to R205, spec/30_encoding.md R98).
-/

namespace Sys2Proof.Machine

/-- `ENCODE` (R204). -/
def execEncode (s : State) : Host.Outcome State Fault Refusal := onCommand startEncode s

/-- `DECODE` (R205). -/
def execDecode (s : State) : Host.Outcome State Fault Refusal := onCommand startDecode s

/-- `BADMODE0`: the open bits are not looked at (R201). -/
def execBadmode0 (_srcOk _snkOk : Bool) (s : State) : Host.Outcome State Fault Refusal :=
  onCommand (refuseStart .errMode) s

/-- `BADMODE3`: the open bits are not looked at (R201). -/
def execBadmode3 (_srcOk _snkOk : Bool) (s : State) : Host.Outcome State Fault Refusal :=
  onCommand (refuseStart .errMode) s

/-- `ENCODE_NOSRC`: `snk_ok` is not looked at (R202). -/
def execEncodeNosrc (_snkOk : Bool) (s : State) : Host.Outcome State Fault Refusal :=
  onCommand (refuseStart .errOpenIn) s

/-- `DECODE_NOSRC`: `snk_ok` is not looked at (R202). -/
def execDecodeNosrc (_snkOk : Bool) (s : State) : Host.Outcome State Fault Refusal :=
  onCommand (refuseStart .errOpenIn) s

/-- `ENCODE_NOSNK` (R203). -/
def execEncodeNosnk (s : State) : Host.Outcome State Fault Refusal :=
  onCommand (refuseStart .errOpenOut) s

/-- `DECODE_NOSNK` (R203). -/
def execDecodeNosnk (s : State) : Host.Outcome State Fault Refusal :=
  onCommand (refuseStart .errOpenOut) s

end Sys2Proof.Machine
end

