-- ==== Sys2Proof/Machine/Records.lean ====
section
/-!
DEFINITION. Meanings of the six record forms (spec/30_encoding.md R96, spec/42_decoder.md R173 to R181).
A step makes at most one transfer (R10), so a form's meaning is the step in which its last token arrives:
the count byte of a form that has one was latched by the `TOK_DATA` step before it (R173), and the copies
of a `RUN` are written by the `WRESP` steps after it (R180).
-/

namespace Sys2Proof.Machine

/-- `ZRUN` (R177). -/
def execZrun (v : Byte) (s : State) : Host.Outcome State Fault Refusal := onRecord 0#8 (.data v) s

/-- `RUN` (R176): the expansion opens; each `WRESP_OK` that follows writes one copy (R180). -/
def execRun (c v : Byte) (s : State) : Host.Outcome State Fault Refusal := onRecord c (.data v) s

/-- `END` (R174); the data bits of the token are ignored (R99). -/
def execEnd (_ign : BitVec 8) (s : State) : Host.Outcome State Fault Refusal := onBoundary .eos s

/-- `FAIL` (R175). -/
def execFail (_ign : BitVec 9) (s : State) : Host.Outcome State Fault Refusal := onBoundary .err s

/-- `HALF` (R178): the lone byte is dropped silently. -/
def execHalf (c : Byte) (_ign : BitVec 8) (s : State) : Host.Outcome State Fault Refusal :=
  onRecord c .eos s

/-- `BREAK` (R179): the lone byte is dropped, `TRUNCATED` is raised, the outcome is `END_TRUNCATED`. -/
def execBreak (c : Byte) (_ign : BitVec 9) (s : State) : Host.Outcome State Fault Refusal :=
  onRecord c .err s

end Sys2Proof.Machine
end

