-- ==== Sys2Proof/Machine/Responses.lean ====
section
/-!
DEFINITION. Meanings of the two `WRESP` rows (spec/30_encoding.md R100), the two `WARN` rows (R102) and
the `STATUS` row (R101).
-/

namespace Sys2Proof.Machine

/-- `WRESP_OK` (R155, R158, R180). -/
def execWrespOk (s : State) : Host.Outcome State Fault Refusal := inPhase s (answerOk s)

/-- `WRESP_FAIL` (R156, R159, R181). -/
def execWrespFail (s : State) : Host.Outcome State Fault Refusal := inPhase s (answerFail s)

/-- `WARN_ZERO_COUNT`: what driving the word does by itself (R231, R232). -/
def execWarnZeroCount (s : State) : Host.Outcome State Fault Refusal := onWarning .zeroCount s

/-- `WARN_TRUNCATED`: what driving the word does by itself (R231, R233). -/
def execWarnTruncated (s : State) : Host.Outcome State Fault Refusal := onWarning .truncated s

/-- `STATUS`: "driven continuously by CTL; not a command". A step that only drives it changes nothing
(R101, R34). -/
def execStatus (_busy _done : Bool) (_outcome : OpOutcome) (s : State) :
    Host.Outcome State Fault Refusal :=
  inPhase s s

end Sys2Proof.Machine
end

