-- ==== Sys2Proof/Machine/Tokens.lean ====
section
/-!
DEFINITION. Meanings of the four `TOK` rows (spec/30_encoding.md R99): what a source transfer of the
token does in whichever phase the core reads it (R142, R172).
-/

namespace Sys2Proof.Machine

/-- `TOK_DATA`: `DATA(d)` (R143, R147, R151, R152, R173, R176, R177). -/
def execTokData (d : Byte) (s : State) : Host.Outcome State Fault Refusal :=
  inPhase s (takeToken (.data d) s)

/-- `TOK_EOS`: the data bits are ignored (R144, R148, R153, R174, R178). -/
def execTokEos (_ign : BitVec 8) (s : State) : Host.Outcome State Fault Refusal :=
  inPhase s (takeToken .eos s)

/-- `TOK_ERR`: the data bits are ignored (R145, R149, R154, R175, R179). -/
def execTokErr (_ign : BitVec 8) (s : State) : Host.Outcome State Fault Refusal :=
  inPhase s (takeToken .err s)

/-- `TOK_RSVD`: the reserved kind is "decoded as `ERR`" (R99). -/
def execTokRsvd (_ign : BitVec 8) (s : State) : Host.Outcome State Fault Refusal :=
  inPhase s (takeToken .err s)

end Sys2Proof.Machine
end

