-- ==== Sys2Proof/Machine/Dispatch.lean ====
section
/-!
DEFINITION. One arm per row of spec/opcode_table.json.
-/

namespace Sys2Proof.Machine

def exec (i : Instr) (s : State) : Host.Outcome State Fault Refusal :=
  match i with
  | .encode => Sys2Proof.Machine.execEncode s
  | .decode => Sys2Proof.Machine.execDecode s
  | .badmode0 a b => Sys2Proof.Machine.execBadmode0 a b s
  | .badmode3 a b => Sys2Proof.Machine.execBadmode3 a b s
  | .encodeNosrc b => Sys2Proof.Machine.execEncodeNosrc b s
  | .decodeNosrc b => Sys2Proof.Machine.execDecodeNosrc b s
  | .encodeNosnk => Sys2Proof.Machine.execEncodeNosnk s
  | .decodeNosnk => Sys2Proof.Machine.execDecodeNosnk s
  | .zrun v => Sys2Proof.Machine.execZrun v s
  | .run c v => Sys2Proof.Machine.execRun c v s
  | .endRec ign => Sys2Proof.Machine.execEnd ign s
  | .failRec ign => Sys2Proof.Machine.execFail ign s
  | .halfRec c ign => Sys2Proof.Machine.execHalf c ign s
  | .breakRec c ign => Sys2Proof.Machine.execBreak c ign s
  | .tokData d => Sys2Proof.Machine.execTokData d s
  | .tokEos ign => Sys2Proof.Machine.execTokEos ign s
  | .tokErr ign => Sys2Proof.Machine.execTokErr ign s
  | .tokRsvd ign => Sys2Proof.Machine.execTokRsvd ign s
  | .wrespOk => Sys2Proof.Machine.execWrespOk s
  | .wrespFail => Sys2Proof.Machine.execWrespFail s
  | .warnZeroCount => Sys2Proof.Machine.execWarnZeroCount s
  | .warnTruncated => Sys2Proof.Machine.execWarnTruncated s
  | .status b d o => Sys2Proof.Machine.execStatus b d o s

end Sys2Proof.Machine
end

