-- ==== Sys2Proof/Machine/Fetch.lean ====
section
/-!
DEFINITION. Which word the next step takes, and from which port. The core "has no program counter and
fetches no instructions": the sequencers and the partner's word decide the step (spec/10_state.md R33).
-/

namespace Sys2Proof.Machine

/-- What the next step runs. -/
inductive Fetched where
  /-- A word, and the state with the word taken from its port. -/
  | word (i : Instr) (s : State)
  /-- A step rule without an access (R146, R150, R157). -/
  | internal
  /-- No step rule (R32). -/
  | stuck
  deriving DecidableEq, Repr

/-- The decoding of a token word by the phase that reads it: in `D_CNT` at a record boundary, in `D_VAL`
after the count byte in `DEC.cnt`, elsewhere as a plain token (R96, R99). -/
def readToken (s : State) (t : TokWord) : Instr :=
  match s.phase with
  | some .dCnt => decodeBoundary t
  | some .dVal => decodeAfterCount s.decCnt t
  | _ => decodeTok t

/-- The offered command is taken and its two streams are attached (R200, R263 step 2). -/
def attach (l : Launch) (rest : List Launch) (s : State) : State :=
  { s with host := rest, srcRest := l.src, snkAns := l.snk }

/-- The source delivers a token word: it moves from what remains to what was delivered (R61, R66). -/
def deliver (t : TokWord) (rest : List TokWord) (s : State) : State :=
  { s with srcRest := rest, srcSeen := s.srcSeen ++ [TokWord.token t] }

/-- The sink's answer leaves its port (R64). -/
def answered (rest : List WrespWord) (s : State) : State := { s with snkAns := rest }

/-- The pulse of the step before is over (R231). -/
def clearPulse (s : State) : State := { s with warnPulse := none }

/-- The word of the next step. Where the partner offers nothing the step is a hold: the core only
drives its status word, and its state stays (R77, R211, R101). -/
def fetch (s : State) : Fetched :=
  match access s with
  | none => .stuck
  | some .internal => .internal
  | some .command =>
    match s.host with
    | [] => .word (statusInstr s) s
    | l :: rest => .word (decodeCmd l.cmd) (attach l rest s)
  | some .source =>
    match s.srcRest with
    | [] => .word (statusInstr s) s
    | t :: rest => .word (readToken s t) (deliver t rest s)
  | some .sink =>
    match s.snkAns with
    | [] => .word (statusInstr s) s
    | a :: rest => .word (decodeWresp a) (answered rest s)

/-- `s` moved to the encoder's phase `e`. -/
def atEncoder (e : EncSt) (s : State) : State :=
  { s with ctlSt := .cEnc, encSt := e, decSt := .dIdle, rst := false }

/-- `s` moved to the decoder's phase `d`. -/
def atDecoder (d : DecSt) (s : State) : State :=
  { s with ctlSt := .cDec, encSt := .eIdle, decSt := d, rst := false }

/-- `s` moved to an idle core with control state `c`. -/
def atRest (c : CtlSt) (s : State) : State :=
  { s with ctlSt := c, encSt := .eIdle, decSt := .dIdle, rst := false }

/-- The token word `t` next on the source port. -/
def offerFirst (t : TokWord) (s : State) : State := { s with srcRest := t :: s.srcRest }

/-- The state in which the next step takes (or, for an output word, drives) the word of `i`: its port
offers it and the sequencers are where that port is read (log 7). -/
def placeWord (i : Instr) (s : State) : State :=
  match i with
  | .endRec ign => offerFirst (0b01#2 ++ ign) (atDecoder .dCnt s)
  | .failRec ign => offerFirst (0b1#1 ++ ign) (atDecoder .dCnt s)
  | .zrun v => offerFirst (0b00#2 ++ v) { atDecoder .dVal s with decCnt := 0#8 }
  | .run c v => offerFirst (0b00#2 ++ v) { atDecoder .dVal s with decCnt := c }
  | .halfRec c ign => offerFirst (0b01#2 ++ ign) { atDecoder .dVal s with decCnt := c }
  | .breakRec c ign => offerFirst (0b1#1 ++ ign) { atDecoder .dVal s with decCnt := c }
  | .tokData d => offerFirst (0b00#2 ++ d) (atEncoder .eFirst s)
  | .tokEos ign => offerFirst (0b01#2 ++ ign) (atEncoder .eFirst s)
  | .tokErr ign => offerFirst (0b10#2 ++ ign) (atEncoder .eFirst s)
  | .tokRsvd ign => offerFirst (0b11#2 ++ ign) (atEncoder .eFirst s)
  | .wrespOk => { atEncoder .eEmitV s with snkAns := 0#1 :: s.snkAns }
  | .wrespFail => { atEncoder .eEmitV s with snkAns := 1#1 :: s.snkAns }
  | .warnZeroCount => offerFirst 0x000#10 { atDecoder .dVal s with decCnt := 0#8 }
  | .warnTruncated => offerFirst 0x200#10 (atDecoder .dVal s)
  | .status b d o =>
    if b then { atEncoder .eFirst s with srcRest := [], ctlOutcome := o }
    else if d then { atRest .cDone s with host := [], ctlOutcome := o }
    else { atRest .cIdle s with host := [], ctlOutcome := o }
  | .encode | .decode | .badmode0 _ _ | .badmode3 _ _ | .encodeNosrc _ | .decodeNosrc _
  | .encodeNosnk | .decodeNosnk =>
    { atRest (if done s then .cDone else .cIdle) s with
      host := { cmd := BitVec.ofNat 4 (encode i), src := s.srcRest, snk := s.snkAns } :: s.host }

end Sys2Proof.Machine
end

