-- ==== Sys2Proof/Machine/Step.lean ====
section
/-!
DEFINITION. One step of the core (spec/00_scope.md R10): reset while `rst` is asserted (R260), else the
word the sequencers ask for, else the step rule without an access.
-/

namespace Sys2Proof.Machine

/-- One step. A hold is a next state (R77): waiting for a partner "is not an error". -/
def step (s : State) : Host.Outcome State Fault Refusal :=
  if s.rst then .next (takeReset s)
  else
    match fetch (clearPulse s) with
    | .word i t => exec i t
    | .internal => .next (internalStep (clearPulse s))
    | .stuck => .fault .noStepRule

/-- `s` with the row word `w` of `nbits` bits where the next step takes it (log 7). -/
def State.withFetchWord (s : State) (nbits w : Nat) : State :=
  match decodeTableWord nbits w with
  | some i => placeWord i s
  | none => s

end Sys2Proof.Machine
end

