-- ==== Sys2Proof/Machine/Environment.lean ====
section
/-!
DEFINITION. What the three environment agents and the reset pin can do to the machine between two steps
of the core (spec/00_scope.md R11, spec/20_memory.md R77, spec/70_reset_and_hazards.md R260, R263).
-/

namespace Sys2Proof.Machine

/-- One act of the environment. -/
inductive EnvEvent where
  /-- The host offers a further command with its two streams (R200, R263). -/
  | offerCommand (l : Launch)
  /-- The source has a further token ready (R61). -/
  | offerToken (t : TokWord)
  /-- The sink has a further answer ready (R64). -/
  | offerAnswer (a : WrespWord)
  /-- The host no longer offers the command it was offering: "if the host keeps offering it" (R211). -/
  | withdrawCommand
  /-- The source takes back the token it was offering, which the core has not sampled. -/
  | withdrawToken
  /-- The sink takes back the answer it was offering, which the core has not sampled. -/
  | withdrawAnswer
  /-- `rst` is asserted or released (R260). -/
  | setRst (level : Bool)
  deriving DecidableEq, Repr

/-- The state after an act of the environment: it touches the input ports only. -/
def State.env (e : EnvEvent) (s : State) : State :=
  match e with
  | .offerCommand l => { s with host := s.host ++ [l] }
  | .offerToken t => { s with srcRest := s.srcRest ++ [t] }
  | .offerAnswer a => { s with snkAns := s.snkAns ++ [a] }
  | .withdrawCommand => { s with host := s.host.tail }
  | .withdrawToken => { s with srcRest := s.srcRest.tail }
  | .withdrawAnswer => { s with snkAns := s.snkAns.tail }
  | .setRst level => { s with rst := level }

end Sys2Proof.Machine
end

