-- ==== Sys2Proof/Machine/Reference.lean ====
section
/-!
DEFINITION. The functions the source specifies, on whole streams: `encode` (spec/41_encoder.md R140),
`decode` and `zc` (spec/42_decoder.md R170), canonical streams (spec/30_encoding.md R105) and the
pseudo-instruction `REP` (R108). The machine computes none of them as a whole; claims compare `O` with
them.
-/

namespace Sys2Proof.Machine

/-- `encode` by fuel: each record consumes at least one byte of `S` (R140). -/
def encodeFuel : Nat → Stream → Stream
  | 0, _ => []
  | _ + 1, [] => []
  | k + 1, v :: t =>
    let n := min Config.maxRun (1 + runlen v t)
    [BitVec.ofNat 8 n, v] ++ encodeFuel k (t.drop (n - 1))

/-- `encode(S)` (R140). -/
def encodeStream (S : Stream) : Stream := encodeFuel S.length S

/-- `decode(S)` (R170). -/
def decodeStream : Stream → Stream
  | [] => []
  | [_] => []
  | c :: v :: t => rep v c.toNat ++ decodeStream t

/-- `zc(S)`, the number of zero-count warnings (R170). -/
def zeroCounts : Stream → Nat
  | [] => 0
  | [_] => 0
  | c :: _ :: t => (if c = 0#8 then 1 else 0) + zeroCounts t

/-- The complete records of a stream, framed by position alone (R69). -/
def records : Stream → List (Byte × Byte)
  | [] => []
  | [_] => []
  | c :: v :: t => (c, v) :: records t

/-- A well-formed compressed stream: even length, every count at least 1 (R105). -/
def wellFormed (C : Stream) : Prop :=
  C.length % 2 = 0 ∧ ∀ r ∈ records C, r.1 ≠ 0#8

/-- Adjacent records with one value: the first has count 255 (R105, R162 (d)). -/
def maximalRuns : List (Byte × Byte) → Prop
  | [] => True
  | [_] => True
  | r₁ :: r₂ :: t => (r₁.2 = r₂.2 → r₁.1 = 255#8) ∧ maximalRuns (r₂ :: t)

/-- `REP n, v`: the canonical encoding of `rep(v, n)` (R108). -/
def repRecords (v : Byte) (n : Nat) : Stream :=
  (List.replicate (n / 255) [255#8, v]).flatten ++
    (if n % 255 = 0 then [] else [BitVec.ofNat 8 (n % 255), v])

/-- The count of the last record of a stream of records (R160). -/
def lastCount (C : Stream) : Option Byte := ((records C).getLast?).map Prod.fst

/-- `Q` and `v` are "at a boundary": a run of `v` may open after `Q` (R160). -/
def atBoundary (Q : Stream) (v : Byte) : Prop :=
  Q = [] ∨ Q.getLast? ≠ some v ∨ lastCount (encodeStream Q) = some 255#8

end Sys2Proof.Machine
end

