-- ==== Sys2Proof/Safety.lean ====
section
/-!
DEFINITION. The terms in which claims speak of runs: reachable states, the classes of outcomes
(spec/60_exceptions.md R221), what an execution shows (spec/00_scope.md R12), the source of one operation
(spec/20_memory.md R61), and the invariants of the two units (spec/41_encoder.md R160,
spec/42_decoder.md R182).
-/

namespace Sys2Proof.Machine

/-- States reached from reset by steps of the core and acts of the environment, in any order. -/
inductive Reachable : State → Prop where
  | reset : Reachable State.reset
  | step {s t : State} : Reachable s → step s = .next t → Reachable t
  | env {s : State} (e : EnvEvent) : Reachable s → Reachable (s.env e)

/-- The four classes of outcomes; `NONE` has none (R220, R221). -/
inductive OutcomeClass where
  | unclassified | success | warningEnd | fatal | fault
  deriving DecidableEq, Repr

/-- The class of an outcome (the table of R220). -/
def OutcomeClass.of : OpOutcome → OutcomeClass
  | .noOutcome => .unclassified
  | .ok => .success
  | .okEmpty => .success
  | .endTruncated => .warningEnd
  | .errRead => .fatal
  | .errWrite => .fatal
  | .errOpenIn => .fatal
  | .errOpenOut => .fatal
  | .errMode => .fatal
  | .faultBounds => .fault

/-- A safe state: a step rule applies and no internal check has failed. A model "marks that outcome a
fault" (R157, R221): `FAULT_BOUNDS` is excluded here, the machine itself goes on (R221). -/
def Safe (s : State) : Prop := s.phase ≠ none ∧ OutcomeClass.of s.ctlOutcome ≠ .fault

/-- What an execution shows: consumed tokens, `O`, `W`, outcome (R12). -/
structure Observation where
  consumed : List Token
  output : List Byte
  warnings : List Warning
  outcome : OpOutcome
  deriving DecidableEq, Repr

/-- The observation of a state. -/
def observe (s : State) : Observation where
  consumed := s.srcSeen
  output := s.out
  warnings := s.warnLog
  outcome := s.ctlOutcome

/-- The byte of a `DATA` token. -/
def tokenByte : Token → Option Byte
  | .data b => some b
  | .eos => none
  | .err => none

/-- `P`, the bytes consumed so far in the operation (R160, R182). -/
def consumedBytes (s : State) : Stream := s.srcSeen.filterMap tokenByte

/-- The two terminals of a source (R61). -/
inductive Terminal where
  | eos | err
  deriving DecidableEq, Repr

/-- A terminal as a token. -/
def Terminal.token : Terminal → Token
  | .eos => .eos
  | .err => .err

/-- A terminal as a token word with its ignored bits zero (R99). -/
def Terminal.word : Terminal → TokWord
  | .eos => 0x100#10
  | .err => 0x200#10

/-- The source `(S, term)` as the tokens it delivers (R61). -/
def sourceTokens (S : Stream) (term : Terminal) : List Token := S.map Token.data ++ [term.token]

/-- The source `(S, term)` as token words (R61, R99). -/
def sourceWords (S : Stream) (term : Terminal) : List TokWord :=
  S.map (fun b => 0b00#2 ++ b) ++ [term.word]

/-- `n` answers `OK` of the sink. -/
def oks (n : Nat) : List WrespWord := List.replicate n 0#1

/-- `n` steps of the core. -/
abbrev runSteps (n : Nat) (s : State) : Host.Outcome State Fault Refusal :=
  Host.Core.run Sys2Proof.core n s

/-- The core is in `C_IDLE` or `C_DONE`, the phases in which it accepts a command (R200). -/
abbrev Ready (s : State) : Prop := s.phase = some .idle ∨ s.phase = some .done

/-- The token is a byte, not a terminal. -/
abbrev isData (t : Token) : Prop := (tokenByte t).isSome = true

/-- No terminal has been delivered while the core may still read (R63). -/
def SourceInv (s : State) : Prop :=
  match s.phase with
  | some .idle => True
  | some .done => True
  | some .eEmitC => s.encFin = .fNone → ∀ t ∈ s.srcSeen, isData t
  | some .eEmitV => s.encFin = .fNone → ∀ t ∈ s.srcSeen, isData t
  | _ => ∀ t ∈ s.srcSeen, isData t

/-- What the status port says in each phase: `NONE` while idle and busy, an outcome when done (R207). -/
def StatusInv (s : State) : Prop :=
  s.phase ≠ none ∧ (s.phase = some .done ↔ s.ctlOutcome ≠ .noOutcome)

/-- The encoder's invariant (R160): nothing is claimed outside an encode operation. -/
def EncoderInv (s : State) : Prop :=
  let P := consumedBytes s
  match s.phase with
  | some .eFirst => P = [] ∧ s.out = [] ∧ s.encPendV = false ∧ s.encFin = .fNone
  | some .eHead =>
    s.encFin = .fNone ∧
    (s.encPendV = false → P ≠ [] ∧ s.out = encodeStream P ∧ lastCount s.out = some 255#8) ∧
    (s.encPendV = true → ∃ P', P = P' ++ [s.encPendB] ∧ P' ≠ [] ∧ s.out = encodeStream P' ∧
      P'.getLast? ≠ some s.encPendB)
  | some .eScan =>
    1 ≤ s.encCnt.toNat ∧ s.encCnt.toNat ≤ 255 ∧ s.encPendV = false ∧ s.encFin = .fNone ∧
    ∃ P', P = P' ++ rep s.encVal s.encCnt.toNat ∧ atBoundary P' s.encVal ∧
      s.out = encodeStream P'
  | some .eEmitC =>
    1 ≤ s.encCnt.toNat ∧ s.encCnt.toNat ≤ 255 ∧
    ((s.encPendV = true ∧ s.encPendB ≠ s.encVal ∧ s.encFin = .fNone) ∨
      (s.encPendV = false ∧ s.encFin ≠ .fNone) ∨
      (s.encPendV = false ∧ s.encFin = .fNone ∧ s.encCnt = 255#9)) ∧
    ∃ P', P = P' ++ rep s.encVal s.encCnt.toNat ++ (if s.encPendV then [s.encPendB] else []) ∧
      atBoundary P' s.encVal ∧ s.out = encodeStream P'
  | some .eEmitV =>
    1 ≤ s.encCnt.toNat ∧ s.encCnt.toNat ≤ 255 ∧
    ((s.encPendV = true ∧ s.encPendB ≠ s.encVal ∧ s.encFin = .fNone) ∨
      (s.encPendV = false ∧ s.encFin ≠ .fNone) ∨
      (s.encPendV = false ∧ s.encFin = .fNone ∧ s.encCnt = 255#9)) ∧
    ∃ P', P = P' ++ rep s.encVal s.encCnt.toNat ++ (if s.encPendV then [s.encPendB] else []) ∧
      atBoundary P' s.encVal ∧ s.out = encodeStream P' ++ [narrow8 s.encCnt]
  | _ => True

/-- The decoder's invariant (R182): nothing is claimed outside a decode operation. -/
def DecoderInv (s : State) : Prop :=
  let P := consumedBytes s
  match s.phase with
  | some .dCnt =>
    P.length % 2 = 0 ∧ s.out = decodeStream P ∧
    s.warnLog = List.replicate (zeroCounts P) .zeroCount
  | some .dVal =>
    ∃ P', P = P' ++ [s.decCnt] ∧ P'.length % 2 = 0 ∧ s.out = decodeStream P' ∧
      s.warnLog = List.replicate (zeroCounts P') .zeroCount
  | some .dExp =>
    ∃ P' c, P = P' ++ [c, s.decVal] ∧ P'.length % 2 = 0 ∧ 1 ≤ s.decCnt.toNat ∧
      s.decCnt.toNat ≤ c.toNat ∧
      s.out = decodeStream P' ++ rep s.decVal (c.toNat - s.decCnt.toNat) ∧
      s.warnLog = List.replicate (zeroCounts P) .zeroCount
  | _ => True

end Sys2Proof.Machine
end

