-- ==== Sys2Proof/Certificates/Slice0/Obligations.lean ====
section
/-!
DEFINITION. The statements about the model, each with the rule of spec/ it formalises. A result is
stated as the whole next state, so that it is also the frame: every field not named is unchanged.
-/

open Sys2Proof Sys2Proof.Machine

/-! ### Reset -/

/-- R38: the six registers with a reset value and the outputs after reset. -/
def Obligations.ResetRegistersAndOutputs : Prop :=
  State.reset.ctlSt = .cIdle ∧ State.reset.ctlOutcome = .noOutcome ∧ State.reset.encSt = .eIdle ∧
  State.reset.encPendV = false ∧ State.reset.encFin = .fNone ∧ State.reset.decSt = .dIdle ∧
  statusWord State.reset = 0b000000#6 ∧ cmdReady State.reset = true ∧
  srcReady State.reset = false ∧ snkValid State.reset = false ∧ warnValid State.reset = false

/-- R260, R261: while `rst` is asserted a step is the reset and nothing else, from any state whatever;
no transfer happens, no outcome and no warning is recorded, `O` keeps what it has. After it the core does
nothing until a command is offered. -/
def Obligations.RstResetsFromAnyState : Prop :=
  (∀ s : State, s.rst = true →
    ∃ t, step s = .next t ∧ t.phase = some .idle ∧ t.ctlOutcome = .noOutcome ∧ t.encPendV = false ∧
      t.encFin = .fNone ∧ t.out = s.out ∧ t.warnLog = s.warnLog ∧ t.warnPulse = none ∧
      t.srcSeen = s.srcSeen ∧ t.srcRest = s.srcRest ∧ t.snkAns = s.snkAns ∧ t.host = s.host ∧
      t.rst = true) ∧
  (∀ s : State, s.phase = some .idle → s.rst = false → s.host = [] →
    step s = .next { s with warnPulse := none })

/-! ### The command -/

/-- R204, R141. -/
def Obligations.EncodeCommandStartsTheEncoder : Prop :=
  ∀ s : State, Ready s →
    exec .encode s = .next { s with
      ctlSt := .cEnc, ctlOutcome := .noOutcome, encSt := .eFirst, encPendV := false, encFin := .fNone,
      out := [], warnLog := [], srcSeen := [] }

/-- R205, R171. -/
def Obligations.DecodeCommandStartsTheDecoder : Prop :=
  ∀ s : State, Ready s →
    exec .decode s = .next { s with
      ctlSt := .cDec, ctlOutcome := .noOutcome, decSt := .dCnt, out := [], warnLog := [], srcSeen := [] }

/-- R201, R229: whatever the open bits. -/
def Obligations.InvalidModeEndsWithErrMode : Prop :=
  ∀ (s : State) (a b : Bool), Ready s →
    exec (.badmode0 a b) s = .next { s with
      ctlSt := .cDone, ctlOutcome := .errMode, out := [], warnLog := [], srcSeen := [] } ∧
    exec (.badmode3 a b) s = .next { s with
      ctlSt := .cDone, ctlOutcome := .errMode, out := [], warnLog := [], srcSeen := [] }

/-- R202, R227: whatever `snk_ok`. -/
def Obligations.ClosedInputEndsWithErrOpenIn : Prop :=
  ∀ (s : State) (b : Bool), Ready s →
    exec (.encodeNosrc b) s = .next { s with
      ctlSt := .cDone, ctlOutcome := .errOpenIn, out := [], warnLog := [], srcSeen := [] } ∧
    exec (.decodeNosrc b) s = .next { s with
      ctlSt := .cDone, ctlOutcome := .errOpenIn, out := [], warnLog := [], srcSeen := [] }

/-- R203, R228. -/
def Obligations.ClosedOutputEndsWithErrOpenOut : Prop :=
  ∀ s : State, Ready s →
    exec .encodeNosnk s = .next { s with
      ctlSt := .cDone, ctlOutcome := .errOpenOut, out := [], warnLog := [], srcSeen := [] } ∧
    exec .decodeNosnk s = .next { s with
      ctlSt := .cDone, ctlOutcome := .errOpenOut, out := [], warnLog := [], srcSeen := [] }

/-- R237: over all sixteen command words, the first check that fails decides the outcome. -/
def Obligations.StartChecksModeThenInputThenOutput : Prop :=
  ∀ (s : State) (w : CmdWord), Ready s →
    ∃ t, exec (decodeCmd w) s = .next t ∧ t.out = [] ∧ t.warnLog = [] ∧
      (if w.extractLsb' 2 2 ≠ 0b01#2 ∧ w.extractLsb' 2 2 ≠ 0b10#2 then
        t.phase = some .done ∧ t.ctlOutcome = .errMode
      else if w.getLsbD 1 = false then t.phase = some .done ∧ t.ctlOutcome = .errOpenIn
      else if w.getLsbD 0 = false then t.phase = some .done ∧ t.ctlOutcome = .errOpenOut
      else t.ctlOutcome = .noOutcome ∧
        t.phase = if w.extractLsb' 2 2 = 0b01#2 then some .eFirst else some .dCnt)

/-- R211: while busy an offered command has no effect, is neither taken nor dropped, and is taken in the
first step after the operation ends. -/
def Obligations.CommandIsHeldOffWhileBusy : Prop :=
  (∀ (s : State) (w : CmdWord), s.phase ≠ none → busy s = true →
    cmdReady s = false ∧ exec (decodeCmd w) s = .next s) ∧
  (∀ s t : State, s.rst = false → busy s = true → step s = .next t → t.host = s.host) ∧
  (∀ (s t : State) (l : Launch) (ls : List Launch), s.rst = false → busy s = true →
    s.host = l :: ls → step s = .next t → t.phase = some .done →
    step t = exec (decodeCmd l.cmd) (attach l ls (clearPulse t)))

/-- R208: a `START` accepted in `C_DONE` behaves exactly as one accepted in `C_IDLE`. -/
def Obligations.CommandFromDoneActsAsFromIdle : Prop :=
  ∀ (s : State) (w : CmdWord), s.phase = some .done →
    ∃ t, exec (decodeCmd w) s = .next t ∧
      exec (decodeCmd w) { s with ctlSt := .cIdle, ctlOutcome := .noOutcome } = .next t

/-! ### The encoder's tokens -/

/-- R143, R144, R145: the first token of an encode operation. -/
def Obligations.FirstTokenOpensARunOrEnds : Prop :=
  ∀ (s : State) (b : Byte) (i : BitVec 8), s.phase = some .eFirst →
    exec (.tokData b) s = .next { s with encVal := b, encCnt := 1#9, encSt := .eScan } ∧
    exec (.tokEos i) s = .next { s with ctlOutcome := .okEmpty, ctlSt := .cDone, encSt := .eIdle } ∧
    exec (.tokErr i) s = .next { s with ctlOutcome := .errRead, ctlSt := .cDone, encSt := .eIdle } ∧
    exec (.tokRsvd i) s = .next { s with ctlOutcome := .errRead, ctlSt := .cDone, encSt := .eIdle }

/-- R147, R148, R149: the token after a full run, the pending slot being empty. -/
def Obligations.HeadTokenOpensARunOrEnds : Prop :=
  ∀ (s : State) (b : Byte) (i : BitVec 8), s.phase = some .eHead → s.encPendV = false →
    exec (.tokData b) s = .next { s with encVal := b, encCnt := 1#9, encSt := .eScan } ∧
    exec (.tokEos i) s = .next { s with ctlOutcome := .ok, ctlSt := .cDone, encSt := .eIdle } ∧
    exec (.tokErr i) s = .next { s with ctlOutcome := .errRead, ctlSt := .cDone, encSt := .eIdle } ∧
    exec (.tokRsvd i) s = .next { s with ctlOutcome := .errRead, ctlSt := .cDone, encSt := .eIdle }

/-- R151: an equal byte below the cap is counted, and the count stays in `2..255`. -/
def Obligations.EqualByteIsCountedWithoutWrap : Prop :=
  ∀ s : State, s.phase = some .eScan → 1 ≤ s.encCnt.toNat → s.encCnt.toNat ≤ 254 →
    ∃ t, exec (.tokData s.encVal) s = .next t ∧ t = { s with encCnt := t.encCnt } ∧
      t.encCnt.toNat = s.encCnt.toNat + 1 ∧ lenOk t.encCnt.toNat = true

/-- R152, R153, R154: below the cap a different byte is parked in the slot, and the end of the input is
recorded; each closes the run. -/
def Obligations.DifferentByteOrEndClosesTheRun : Prop :=
  ∀ (s : State) (b : Byte) (i : BitVec 8), s.phase = some .eScan → atCap s.encCnt = false →
    (b ≠ s.encVal → exec (.tokData b) s = .next { s with
      encPendV := true, encPendB := b, encSt := .eEmitC }) ∧
    exec (.tokEos i) s = .next { s with encFin := .fEos, encSt := .eEmitC } ∧
    exec (.tokErr i) s = .next { s with encFin := .fErr, encSt := .eEmitC } ∧
    exec (.tokRsvd i) s = .next { s with encFin := .fErr, encSt := .eEmitC }

/-- R99: the total decode of a token word; the reserved kind is a read failure in every state. -/
def Obligations.ReservedTokenKindIsAReadFailure : Prop :=
  (∀ t : TokWord, TokWord.token t =
    if t.extractLsb' 8 2 = 0b00#2 then .data (t.extractLsb' 0 8)
    else if t.extractLsb' 8 2 = 0b01#2 then .eos else .err) ∧
  (∀ (s : State) (i j : BitVec 8), exec (.tokRsvd i) s = exec (.tokErr j) s)

/-! ### The decoder's tokens and records -/

/-- R173: the byte at a record boundary is the count, whatever its value. -/
def Obligations.CountByteIsLatchedWhateverItsValue : Prop :=
  ∀ (s : State) (b : Byte), s.phase = some .dCnt →
    exec (.tokData b) s = .next { s with decCnt := b, decSt := .dVal }

/-- R177: a zero-count record is skipped with one warning and decoding goes on. -/
def Obligations.ZeroCountRecordIsSkippedWithOneWarning : Prop :=
  ∀ (s : State) (v : Byte), s.phase = some .dVal → s.decCnt = 0#8 →
    exec (.zrun v) s = .next { s with
      decVal := v, decSt := .dCnt, warnLog := s.warnLog ++ [.zeroCount],
      warnPulse := some .zeroCount }

/-- R176. -/
def Obligations.RunRecordOpensTheExpansion : Prop :=
  ∀ (s : State) (c v : Byte), s.phase = some .dVal → s.decCnt = c → c ≠ 0#8 →
    exec (.run c v) s = .next { s with decVal := v, decSt := .dExp }

/-- R176 and R180 together, the whole effect of a `RUN` record: after its value byte, one step for each
of `count` answers `OK` appends `value` exactly `count` times and returns to a record boundary. -/
def Obligations.RunRecordWritesExactlyCountCopies : Prop :=
  ∀ (s : State) (c v : Byte) (rest : List WrespWord), s.phase = some .dVal → s.decCnt = c → c ≠ 0#8 →
    s.rst = false → s.snkAns = oks c.toNat ++ rest →
    ∃ t, exec (.run c v) s = .next t ∧
      runSteps c.toNat t = .next { s with
        decVal := v, decCnt := 0#8, decSt := .dCnt, out := s.out ++ rep v c.toNat,
        snkAns := rest, warnPulse := none }

/-- R174, R175: the bare terminals at a record boundary. -/
def Obligations.TerminalAtABoundaryEndsTheDecoder : Prop :=
  ∀ (s : State) (i : BitVec 8) (j : BitVec 9), s.phase = some .dCnt →
    exec (.endRec i) s = .next { s with ctlOutcome := .ok, ctlSt := .cDone, decSt := .dIdle } ∧
    exec (.failRec j) s = .next { s with ctlOutcome := .errRead, ctlSt := .cDone, decSt := .dIdle }

/-- R178: a lone trailing byte, whatever its value, is dropped without a warning. -/
def Obligations.LoneTrailingByteIsDroppedSilently : Prop :=
  ∀ (s : State) (c : Byte) (i : BitVec 8), s.phase = some .dVal → s.decCnt = c →
    exec (.halfRec c i) s = .next { s with ctlOutcome := .ok, ctlSt := .cDone, decSt := .dIdle }

/-- R179: a read failure after a count byte. -/
def Obligations.BrokenRecordWarnsAndEndsTruncated : Prop :=
  ∀ (s : State) (c : Byte) (i : BitVec 9), s.phase = some .dVal → s.decCnt = c →
    exec (.breakRec c i) s = .next { s with
      ctlOutcome := .endTruncated, ctlSt := .cDone, decSt := .dIdle,
      warnLog := s.warnLog ++ [.truncated], warnPulse := some .truncated }

/-- R96, R172: a record form does exactly what the token that completes it does, so the map from tokens
to forms loses nothing. That `exec` of a form is the one step of its last token is the model's own
reading (log 10): R96 gives the form the effect of all its steps, and R172 calls the forms paths. -/
def Obligations.RecordFormsActAsTheirLastToken : Prop :=
  ∀ (s : State) (t : TokWord),
    (s.phase = some .dCnt → exec (decodeBoundary t) s = exec (decodeTok t) s) ∧
    (s.phase = some .dVal → exec (decodeAfterCount s.decCnt t) s = exec (decodeTok t) s)

/-! ### The sink's answers and the steps without an access -/

/-- R155, R156. -/
def Obligations.CountByteIsWrittenOrTheOperationFails : Prop :=
  ∀ s : State, s.phase = some .eEmitC → lenOk s.encCnt.toNat = true →
    exec .wrespOk s = .next { s with
      out := s.out ++ [s.encCnt.extractLsb' 0 8], encSt := .eEmitV } ∧
    exec .wrespFail s = .next { s with ctlOutcome := .errWrite, ctlSt := .cDone, encSt := .eIdle }

/-- R158, R159. -/
def Obligations.ValueByteIsWrittenAndTheRunEnds : Prop :=
  ∀ s : State, s.phase = some .eEmitV →
    (s.encFin = .fEos → exec .wrespOk s = .next { s with
      out := s.out ++ [s.encVal], ctlOutcome := .ok, ctlSt := .cDone, encSt := .eIdle }) ∧
    (s.encFin = .fErr → exec .wrespOk s = .next { s with
      out := s.out ++ [s.encVal], ctlOutcome := .errRead, ctlSt := .cDone, encSt := .eIdle }) ∧
    (s.encFin = .fNone → exec .wrespOk s = .next { s with
      out := s.out ++ [s.encVal], encSt := .eHead }) ∧
    exec .wrespFail s = .next { s with ctlOutcome := .errWrite, ctlSt := .cDone, encSt := .eIdle }

/-- R180, R181: a copy is appended and counted off; the last one returns to a record boundary; a refused
copy ends the operation and is not counted off. -/
def Obligations.ExpandedByteIsCountedOff : Prop :=
  ∀ s : State, s.phase = some .dExp → s.decCnt ≠ 0#8 →
    (s.decCnt = 1#8 → exec .wrespOk s = .next { s with
      out := s.out ++ [s.decVal], decCnt := 0#8, decSt := .dCnt }) ∧
    (s.decCnt ≠ 1#8 → exec .wrespOk s = .next { s with
      out := s.out ++ [s.decVal], decCnt := s.decCnt - 1#8 }) ∧
    exec .wrespFail s = .next { s with ctlOutcome := .errWrite, ctlSt := .cDone, decSt := .dIdle }

/-- R146, R150, R157: the steps that make no access, for any offers on the ports. That a count the bounds
checker refuses leads to a next state, `C_DONE` with `FAULT_BOUNDS` (R157, R221), and not to a fault of
the model is the model's choice (log 4). -/
def Obligations.StepsWithoutAnAccess : Prop :=
  ∀ s : State, s.rst = false →
    (s.phase = some .eHead → s.encPendV = true → step s = .next { s with
      encVal := s.encPendB, encCnt := 1#9, encPendV := false, encSt := .eScan, warnPulse := none }) ∧
    (s.phase = some .eScan → s.encCnt = 255#9 → step s = .next { s with
      encSt := .eEmitC, warnPulse := none }) ∧
    (s.phase = some .eEmitC → lenOk s.encCnt.toNat = false → step s = .next { s with
      ctlOutcome := .faultBounds, ctlSt := .cDone, encSt := .eIdle, warnPulse := none })

/-- R231, with the phase R177 and R179 raise in: one entry of `W`, one pulse, nothing else. -/
def Obligations.WarningWordLogsOnceAndPulses : Prop :=
  ∀ s : State, s.phase = some .dVal →
    exec .warnZeroCount s = .next { s with
      warnLog := s.warnLog ++ [.zeroCount], warnPulse := some .zeroCount } ∧
    exec .warnTruncated s = .next { s with
      warnLog := s.warnLog ++ [.truncated], warnPulse := some .truncated }

/-- R101, R34: the fields of the status word are `busy`, `done` and the outcome's code, and `busy` and
`done` are never both `1`. That a `STATUS` word changes nothing also when its fields are not the ones
`CTL` drives is the model's choice (log 9). -/
def Obligations.StatusWordReportsControl : Prop :=
  ∀ s : State, s.phase ≠ none →
    (∀ (b d : Bool) (o : OpOutcome), exec (.status b d o) s = .next s) ∧
    (statusWord s).getLsbD 5 = decide (s.ctlSt = .cEnc ∨ s.ctlSt = .cDec) ∧
    (statusWord s).getLsbD 4 = decide (s.ctlSt = .cDone) ∧
    (statusWord s).extractLsb' 0 4 = s.ctlOutcome.code ∧
    ((statusWord s).getLsbD 5 && (statusWord s).getLsbD 4) = false

/-- R78: where the core asks for no token, or offers no byte, a word on that port has no effect. That a
record or a warning word the decoder is not at has none either is the model's own choice (log 9). -/
def Obligations.WordsAreIgnoredWithoutATransfer : Prop :=
  ∀ s : State, s.phase ≠ none →
    (srcReady s = false → ∀ t : TokWord, exec (decodeTok t) s = .next s) ∧
    (snkValid s = false → ∀ a : WrespWord, exec (decodeWresp a) s = .next s) ∧
    (Ready s → srcReady s = false ∧ snkValid s = false) ∧
    (s.phase ≠ some .dCnt → ∀ i j, exec (.endRec i) s = .next s ∧ exec (.failRec j) s = .next s) ∧
    (∀ c : Byte, (s.phase ≠ some .dVal ∨ s.decCnt ≠ c) → ∀ v i j, exec (.run c v) s = .next s ∧
      exec (.halfRec c i) s = .next s ∧ exec (.breakRec c j) s = .next s) ∧
    ((s.phase ≠ some .dVal ∨ s.decCnt ≠ 0#8) → ∀ v, exec (.zrun v) s = .next s) ∧
    (s.phase ≠ some .dVal → exec .warnZeroCount s = .next s ∧ exec .warnTruncated s = .next s)

/-- R32: the combinations of the sequencers without a step rule are stuck. -/
def Obligations.UnreachableCombinationsAreStuck : Prop :=
  ∀ s : State, s.phase = none →
    (s.rst = false → step s = .fault .noStepRule) ∧ ∀ i : Instr, exec i s = .fault .noStepRule

/-- R32, R142, R172: in the ten phases every instruction answers a next state, and that state is again in
one of the ten. The rules speak of the words the core asks for; that a word out of place is a next state
too, and not a refusal, is the model's choice (log 9). -/
def Obligations.EveryInstructionKeepsTheTenPhases : Prop :=
  ∀ (i : Instr) (s : State), s.phase ≠ none → ∃ t, exec i s = .next t ∧ t.phase ≠ none

/-! ### The step -/

/-- R10, R33: a step runs the instruction its port's word decodes to, in the format its phase reads. -/
def Obligations.StepRunsTheDecodedWord : Prop :=
  ∀ (s : State) (i : Instr), s.rst = false →
    (∀ l ls, Ready s → s.host = l :: ls → decode .cmd l.cmd.toNat = .ok i →
      step s = exec i (attach l ls (clearPulse s))) ∧
    (∀ t ts, s.ctlSt = .cEnc → srcReady s = true → s.srcRest = t :: ts →
      decode .tok t.toNat = .ok i → step s = exec i (deliver t ts (clearPulse s))) ∧
    (∀ t ts, s.phase = some .dCnt → s.srcRest = t :: ts →
      decode .boundary t.toNat = .ok i → step s = exec i (deliver t ts (clearPulse s))) ∧
    (∀ t ts, s.phase = some .dVal → s.srcRest = t :: ts → TokWord.kind t = 0b00#2 →
      decode .pair (s.decCnt ++ TokWord.dataBits t).toNat = .ok i →
      step s = exec i (deliver t ts (clearPulse s))) ∧
    (∀ t ts, s.phase = some .dVal → s.srcRest = t :: ts → TokWord.kind t ≠ 0b00#2 →
      decode .halfTok (s.decCnt ++ t).toNat = .ok i →
      step s = exec i (deliver t ts (clearPulse s))) ∧
    (∀ a as, snkValid s = true → s.snkAns = a :: as → decode .wresp a.toNat = .ok i →
      step s = exec i (answered as (clearPulse s)))

/-- R77: a step whose partner offers nothing is a hold. R77 says such a step is not enabled; that the
hold is itself a step, a next state with the pulse before it ended, is the model's choice (log 8). -/
def Obligations.WaitingForAPartnerHoldsTheState : Prop :=
  ∀ s : State, s.rst = false →
    (Ready s → s.host = [] → step s = .next { s with warnPulse := none }) ∧
    (srcReady s = true → s.srcRest = [] → step s = .next { s with warnPulse := none }) ∧
    (snkValid s = true → s.snkAns = [] → step s = .next { s with warnPulse := none })

/-- R10, R64, R66, R72: a step makes at most one transfer, and moves one byte, one token or one command.
That an accepted command replaces what stands on the two stream ports by its own streams is the model's
choice (log 8). -/
def Obligations.StepMakesAtMostOneTransfer : Prop :=
  ∀ s t : State, s.rst = false → step s = .next t →
    (∃ l, s.host = l :: t.host ∧ t.srcRest = l.src ∧ t.snkAns = l.snk ∧ t.out = [] ∧
      t.srcSeen = [] ∧ cmdReady s = true) ∨
    (∃ w, s.srcRest = w :: t.srcRest ∧ t.srcSeen = s.srcSeen ++ [TokWord.token w] ∧
      t.host = s.host ∧ t.snkAns = s.snkAns ∧ t.out = s.out ∧ srcReady s = true) ∨
    (∃ a b, s.snkAns = a :: t.snkAns ∧ snkData s = some b ∧
      t.out = (if a = 0#1 then s.out ++ [b] else s.out) ∧
      t.host = s.host ∧ t.srcRest = s.srcRest ∧ t.srcSeen = s.srcSeen) ∨
    (t.host = s.host ∧ t.srcRest = s.srcRest ∧ t.srcSeen = s.srcSeen ∧ t.snkAns = s.snkAns ∧
      t.out = s.out)

/-- R231, R102, R234: a warning is logged in the step in which it pulses, only while the decoder waits
for a value byte; `W` is otherwise kept, and emptied only by an accepted command. -/
def Obligations.WarningsAreLoggedAsTheyPulse : Prop :=
  ∀ s t : State, step s = .next t →
    (∃ k, t.warnPulse = some k ∧ t.warnLog = s.warnLog ++ [k] ∧ s.phase = some .dVal) ∨
    (t.warnPulse = none ∧ t.warnLog = s.warnLog) ∨
    (t.warnPulse = none ∧ t.warnLog = [] ∧ cmdReady s = true)

/-- R20: neither unit writes the other's registers. -/
def Obligations.UnitsDoNotWriteEachOthersRegisters : Prop :=
  ∀ s t : State, s.rst = false → step s = .next t →
    (s.ctlSt = .cEnc → t.decSt = s.decSt ∧ t.decCnt = s.decCnt ∧ t.decVal = s.decVal) ∧
    (s.ctlSt = .cDec → t.encSt = s.encSt ∧ t.encVal = s.encVal ∧ t.encCnt = s.encCnt ∧
      t.encPendV = s.encPendV ∧ t.encPendB = s.encPendB ∧ t.encFin = s.encFin)

/-- R40: a step that ends an operation, or accepts a command, keeps the five data registers. -/
def Obligations.FinishAndStartKeepTheDataRegisters : Prop :=
  ∀ s t : State, s.rst = false → step s = .next t → (t.phase = some .done ∨ Ready s) →
    t.encVal = s.encVal ∧ t.encCnt = s.encCnt ∧ t.encPendB = s.encPendB ∧ t.decCnt = s.decCnt ∧
    t.decVal = s.decVal

/-! ### Encodings -/

/-- Words written out from the `encoding` column of spec/opcode_table.json decode to their rows. -/
def Obligations.WordsOfTheTableDecodeToTheirRows : Prop :=
  decode .cmd 0b0111 = .ok .encode ∧ decode .cmd 0b1011 = .ok .decode ∧
  decode .cmd 0b0101 = .ok (.encodeNosrc true) ∧ decode .pair 0x0241 = .ok (.run 0x02#8 0x41#8) ∧
  decode .pair 0x0041 = .ok (.zrun 0x41#8) ∧ decode .boundary 0b01_00000000 = .ok (.endRec 0#8) ∧
  decode .halfTok 0b00000101_0100000000 = .ok (.halfRec 5#8 0#8) ∧
  decode .tok 0b00_01000001 = .ok (.tokData 0x41#8) ∧ decode .wresp 1 = .ok .wrespFail ∧
  decode .warn 0b10 = .ok .warnTruncated ∧ decode .status 0b01_1000 = .ok (.status false true .errMode)

/-- Decode and encode agree on every well-formed instruction, with every operand and every ignored bit. -/
def Obligations.DecodeOfEncodeIsTheInstruction : Prop :=
  ∀ i : Instr, i.wf = true → decode i.format (encode i) = .ok i

/-- The other direction: a decoded instruction is well-formed and encodes to the word it came from. -/
def Obligations.EncodeOfDecodeIsTheWord : Prop :=
  ∀ (f : Format) (w : Nat) (i : Instr), decode f w = .ok i → i.wf = true ∧ encode i = w

/-- R104, R96, R98, R99: every word a host, a source or a sink can give decodes; the words never driven
(R102, R220, R34) do not. That the decoder refuses these by name is the model's choice (log 12), and so is
the order `c ++ t` of the 18-bit group (log 5). -/
def Obligations.EveryInputWordDecodesAndUnusedWordsAreRefused : Prop :=
  (∀ (f : Format) (w : Nat), w < 2 ^ f.width → f ≠ .warn → f ≠ .status → f ≠ .halfTok →
    ∃ i, decode f w = .ok i) ∧
  (∀ (c : Byte) (t : TokWord), TokWord.kind t ≠ 0b00#2 →
    ∃ i, decode .halfTok (c ++ t).toNat = .ok i) ∧
  decode .warn 0b00 = .error .unusedWarnCode ∧ decode .warn 0b11 = .error .unusedWarnCode ∧
  (∀ c : Nat, 9 ≤ c → c ≤ 14 → decode .status (0b00_0000 + c) = .error .unusedOutcomeCode ∧
    decode .status (0b01_0000 + c) = .error .unusedOutcomeCode ∧
    decode .status (0b10_0000 + c) = .error .unusedOutcomeCode) ∧
  (∀ c : Nat, c ≤ 15 → decode .status (0b11_0000 + c) = .error .busyAndDone)

/-! ### The functions -/

/-- R140. -/
def Obligations.EncodeFollowsItsRecursion : Prop :=
  encodeStream [] = [] ∧
  ∀ (v : Byte) (T : Stream), encodeStream (v :: T) =
    [BitVec.ofNat 8 (min 255 (1 + runlen v T)), v] ++
      encodeStream (T.drop (min 255 (1 + runlen v T) - 1))

/-- R187: the round trip, and no zero-count record in an encoding. -/
def Obligations.DecodeInvertsEncode : Prop :=
  ∀ S : Stream, decodeStream (encodeStream S) = S ∧ zeroCounts (encodeStream S) = 0

/-- R105: the canonical streams are the well-formed ones whose runs are maximal, and on them `encode`
inverts `decode`. -/
def Obligations.CanonicalStreamsAreTheEncodings : Prop :=
  ∀ C : Stream,
    ((∃ S, C = encodeStream S) ↔ wellFormed C ∧ maximalRuns (records C)) ∧
    (encodeStream (decodeStream C) = C ↔ ∃ S, C = encodeStream S)

/-- R162 (f): encoding of a concatenation at a boundary. -/
def Obligations.EncodeSplitsAtABoundary : Prop :=
  ∀ (S T : Stream) (v : Byte), atBoundary S v →
    encodeStream (S ++ v :: T) = encodeStream S ++ encodeStream (v :: T)

/-- R108, which draws it from R140: `REP n, v` is the encoding of `n` copies of `v`. -/
def Obligations.RepIsTheEncodingOfARun : Prop :=
  ∀ (v : Byte) (n : Nat), encodeStream (rep v n) = repRecords v n

/-- R163: the sizes of an encoding, with the cases of equality. -/
def Obligations.EncodingSizes : Prop :=
  (∀ S : Stream, (encodeStream S).length ≤ 2 * S.length ∧
    ((encodeStream S).length = 2 * S.length ↔ S.IsChain (· ≠ ·)) ∧
    2 * ((S.length + 254) / 255) ≤ (encodeStream S).length) ∧
  ∀ (v : Byte) (n : Nat), (encodeStream (rep v n)).length = 2 * ((n + 254) / 255)

/-! ### Invariants -/

/-- The state after reset meets every invariant stated below. -/
def Obligations.ResetMeetsTheInvariants : Prop :=
  StatusInv State.reset ∧ SourceInv State.reset ∧ EncoderInv State.reset ∧ DecoderInv State.reset ∧
  Safe State.reset

/-- R160: the encoder's invariant is kept by every step. -/
def Obligations.StepKeepsTheEncoderInvariant : Prop :=
  ∀ s t : State, EncoderInv s → step s = .next t → EncoderInv t

/-- R182: the decoder's invariant is kept by every step. -/
def Obligations.StepKeepsTheDecoderInvariant : Prop :=
  ∀ s t : State, DecoderInv s → step s = .next t → DecoderInv t

/-- R63: no token is read after a terminal; the invariant behind it is kept by every step. -/
def Obligations.NothingIsReadAfterATerminal : Prop :=
  (∀ s t : State, SourceInv s → step s = .next t → SourceInv t) ∧
  (∀ s : State, SourceInv s → srcReady s = true → ∀ t ∈ s.srcSeen, isData t)

/-- R207, R34: the status port reads `NONE` while idle and busy and an outcome when done, and from a done
core the outcome stays, with the whole status word, over every step that takes no command and over every
act of the environment. -/
def Obligations.StepKeepsTheStatusInvariant : Prop :=
  (∀ s t : State, StatusInv s → step s = .next t → StatusInv t) ∧
  (∀ s t : State, s.phase = some .done → s.rst = false → step s = .next t → t.host = s.host →
    t.phase = some .done ∧ t.ctlOutcome = s.ctlOutcome ∧ statusWord t = statusWord s) ∧
  (∀ (s : State) (e : EnvEvent), statusWord (s.env e) = statusWord s ∧
    (s.env e).phase = s.phase)

/-- R32, R157, R230: every reachable state is in one of the ten phases, none has the outcome
`FAULT_BOUNDS`, and each can take a step. -/
def Obligations.ReachableStatesAreSafeAndStep : Prop :=
  ∀ s : State, Reachable s → Safe s ∧ EncoderInv s ∧ DecoderInv s ∧ ∃ t, step s = .next t

/-! ### Whole operations -/

/-- R161, R163: an encode operation whose writes are all answered `OK`. -/
def Obligations.EncodeOperationWritesTheEncoding : Prop :=
  ∀ (s : State) (S : Stream) (term : Terminal) (rest : List WrespWord) (ls : List Launch),
    Ready s → s.rst = false →
    s.host = { cmd := 0b0111#4, src := sourceWords S term,
               snk := oks (encodeStream S).length ++ rest } :: ls →
    ∃ n t, n ≤ 5 * S.length + 2 ∧ runSteps n s = .next t ∧ t.phase = some .done ∧
      t.out = encodeStream S ∧ t.warnLog = [] ∧ t.srcSeen = sourceTokens S term ∧ t.srcRest = [] ∧
      t.snkAns = rest ∧ t.host = ls ∧
      t.ctlOutcome = (if term = .err then .errRead else if S = [] then .okEmpty else .ok)

/-- R161: an encode operation one of whose writes is refused. -/
def Obligations.EncodeOperationStopsAtARefusedWrite : Prop :=
  ∀ (s : State) (S : Stream) (term : Terminal) (k : Nat) (rest : List WrespWord) (ls : List Launch),
    Ready s → s.rst = false → k < (encodeStream S).length →
    s.host = { cmd := 0b0111#4, src := sourceWords S term, snk := oks k ++ 1#1 :: rest } :: ls →
    ∃ n t, n ≤ 5 * S.length + 2 ∧ runSteps n s = .next t ∧ t.phase = some .done ∧
      t.out = (encodeStream S).take k ∧ t.warnLog = [] ∧ t.snkAns = rest ∧ t.host = ls ∧
      t.ctlOutcome = .errWrite

/-- R183, R185: a decode operation whose writes are all answered `OK`, on any bytes whatever. -/
def Obligations.DecodeOperationWritesTheDecoding : Prop :=
  ∀ (s : State) (S : Stream) (term : Terminal) (rest : List WrespWord) (ls : List Launch),
    Ready s → s.rst = false →
    s.host = { cmd := 0b1011#4, src := sourceWords S term,
               snk := oks (decodeStream S).length ++ rest } :: ls →
    ∃ n t, n = S.length + (decodeStream S).length + 2 ∧ runSteps n s = .next t ∧
      t.phase = some .done ∧ t.out = decodeStream S ∧ t.srcSeen = sourceTokens S term ∧
      t.srcRest = [] ∧ t.snkAns = rest ∧ t.host = ls ∧
      t.ctlOutcome = (if term = .eos then .ok else if S.length % 2 = 0 then .errRead
        else .endTruncated) ∧
      t.warnLog = List.replicate (zeroCounts S) .zeroCount ++
        (if term = .err ∧ S.length % 2 = 1 then [.truncated] else [])

/-- R183: a decode operation one of whose writes is refused. -/
def Obligations.DecodeOperationStopsAtARefusedWrite : Prop :=
  ∀ (s : State) (S : Stream) (term : Terminal) (k : Nat) (rest : List WrespWord) (ls : List Launch),
    Ready s → s.rst = false → k < (decodeStream S).length →
    s.host = { cmd := 0b1011#4, src := sourceWords S term, snk := oks k ++ 1#1 :: rest } :: ls →
    ∃ n t, n ≤ S.length + (decodeStream S).length + 2 ∧ runSteps n s = .next t ∧
      t.phase = some .done ∧ t.out = (decodeStream S).take k ∧ t.snkAns = rest ∧ t.host = ls ∧
      t.ctlOutcome = .errWrite ∧
      t.warnLog = List.replicate (zeroCounts (consumedBytes t)) .zeroCount

/-- R187 in steps: an encode operation, then a decode operation on what it wrote. -/
def Obligations.RoundTripThroughTheMachine : Prop :=
  ∀ (s : State) (S : Stream) (ls : List Launch), Ready s → s.rst = false →
    s.host = { cmd := 0b0111#4, src := sourceWords S .eos, snk := oks (encodeStream S).length } ::
      { cmd := 0b1011#4, src := sourceWords (encodeStream S) .eos, snk := oks S.length } :: ls →
    ∃ m n t u, runSteps m s = .next t ∧ t.phase = some .done ∧ t.out = encodeStream S ∧
      runSteps n t = .next u ∧ u.phase = some .done ∧ u.out = S ∧ u.warnLog = [] ∧
      u.ctlOutcome = .ok ∧ u.host = ls

/-- R272: two machines that are ready, and are offered the same commands with the same streams, show the
same at every step from the first acceptance on, whatever earlier operations left in their registers. -/
def Obligations.NothingLeaksBetweenOperations : Prop :=
  ∀ (s₁ s₂ : State) (l : Launch) (ls : List Launch) (n : Nat), Ready s₁ → Ready s₂ →
    s₁.rst = false → s₂.rst = false → s₁.host = l :: ls → s₂.host = l :: ls →
    ∃ t₁ t₂, runSteps (n + 1) s₁ = .next t₁ ∧ runSteps (n + 1) s₂ = .next t₂ ∧
      observe t₁ = observe t₂ ∧ statusWord t₁ = statusWord t₂ ∧ t₁.warnPulse = t₂.warnPulse
end

