-- ==== Sys2Proof/Laws/Decode.lean ====
section
/-!
SUPPORT. The bits of concatenated fields, and decoding of a word that fits its format.
-/

namespace Sys2Proof

/-- The upper part of a concatenation. -/
theorem extract_append_high {m n : Nat} (a : BitVec m) (b : BitVec n) :
    (a ++ b).extractLsb' n m = a := by
  apply BitVec.eq_of_getLsbD_eq
  intro i hi
  simp [BitVec.getLsbD_append, hi]

/-- The lower part of a concatenation. -/
theorem extract_append_low {m n : Nat} (a : BitVec m) (b : BitVec n) :
    (a ++ b).extractLsb' 0 n = b := by
  apply BitVec.eq_of_getLsbD_eq
  intro i hi
  simp [BitVec.getLsbD_append, hi]

/-- The two fields of a token word (R99). -/
theorem tok_fields (k : BitVec 2) (d : BitVec 8) :
    TokWord.kind (k ++ d) = k ∧ TokWord.dataBits (k ++ d) = d :=
  ⟨extract_append_high k d, extract_append_low k d⟩

/-- The two fields of a record word (R91). -/
theorem pair_fields (c v : Byte) :
    (c ++ v : BitVec 16).extractLsb' 8 8 = c ∧ (c ++ v : BitVec 16).extractLsb' 0 8 = v :=
  ⟨extract_append_high c v, extract_append_low c v⟩

/-- The two fields of an 18-bit group. -/
theorem halfTok_fields (c : Byte) (t : TokWord) :
    (c ++ t : BitVec 18).extractLsb' 10 8 = c ∧ (c ++ t : BitVec 18).extractLsb' 0 10 = t :=
  ⟨extract_append_high c t, extract_append_low c t⟩

/-- A word that fits is decoded by its format's decoder. -/
theorem decode_of_lt {f : Format} {w : Nat} (h : w < 2 ^ f.width) :
    decode f w = decodeFitting f w := if_pos h

/-- A word that does not fit is refused by name. -/
theorem decode_of_ge {f : Format} {w : Nat} (h : ¬ w < 2 ^ f.width) :
    decode f w = .error .tooWide := if_neg h

end Sys2Proof
end

