-- ==== Sys2Proof/Laws/State.lean ====
section
/-!
SUPPORT. One lemma per field per shared update, and what `State.phase` says of the three sequencers.
-/

namespace Sys2Proof.Machine

@[simp] theorem finish_ctlSt (o : OpOutcome) (s : State) : (finish o s).ctlSt = .cDone := rfl
@[simp] theorem finish_ctlOutcome (o : OpOutcome) (s : State) : (finish o s).ctlOutcome = o := rfl
@[simp] theorem finish_encSt (o : OpOutcome) (s : State) : (finish o s).encSt = .eIdle := rfl
@[simp] theorem finish_encVal (o : OpOutcome) (s : State) : (finish o s).encVal = s.encVal := rfl
@[simp] theorem finish_encCnt (o : OpOutcome) (s : State) : (finish o s).encCnt = s.encCnt := rfl
@[simp] theorem finish_encPendV (o : OpOutcome) (s : State) : (finish o s).encPendV = s.encPendV := rfl
@[simp] theorem finish_encPendB (o : OpOutcome) (s : State) : (finish o s).encPendB = s.encPendB := rfl
@[simp] theorem finish_encFin (o : OpOutcome) (s : State) : (finish o s).encFin = s.encFin := rfl
@[simp] theorem finish_decSt (o : OpOutcome) (s : State) : (finish o s).decSt = .dIdle := rfl
@[simp] theorem finish_decCnt (o : OpOutcome) (s : State) : (finish o s).decCnt = s.decCnt := rfl
@[simp] theorem finish_decVal (o : OpOutcome) (s : State) : (finish o s).decVal = s.decVal := rfl
@[simp] theorem finish_srcSeen (o : OpOutcome) (s : State) : (finish o s).srcSeen = s.srcSeen := rfl
@[simp] theorem finish_srcRest (o : OpOutcome) (s : State) : (finish o s).srcRest = s.srcRest := rfl
@[simp] theorem finish_out (o : OpOutcome) (s : State) : (finish o s).out = s.out := rfl
@[simp] theorem finish_warnLog (o : OpOutcome) (s : State) : (finish o s).warnLog = s.warnLog := rfl
@[simp] theorem finish_warnPulse (o : OpOutcome) (s : State) : (finish o s).warnPulse = s.warnPulse := rfl
@[simp] theorem finish_snkAns (o : OpOutcome) (s : State) : (finish o s).snkAns = s.snkAns := rfl
@[simp] theorem finish_host (o : OpOutcome) (s : State) : (finish o s).host = s.host := rfl
@[simp] theorem finish_rst (o : OpOutcome) (s : State) : (finish o s).rst = s.rst := rfl
@[simp] theorem finish_rstCount (o : OpOutcome) (s : State) : (finish o s).rstCount = s.rstCount := rfl

@[simp] theorem raiseWarning_ctlSt (k : Warning) (s : State) : (raiseWarning k s).ctlSt = s.ctlSt := rfl
@[simp] theorem raiseWarning_ctlOutcome (k : Warning) (s : State) : (raiseWarning k s).ctlOutcome = s.ctlOutcome := rfl
@[simp] theorem raiseWarning_encSt (k : Warning) (s : State) : (raiseWarning k s).encSt = s.encSt := rfl
@[simp] theorem raiseWarning_encVal (k : Warning) (s : State) : (raiseWarning k s).encVal = s.encVal := rfl
@[simp] theorem raiseWarning_encCnt (k : Warning) (s : State) : (raiseWarning k s).encCnt = s.encCnt := rfl
@[simp] theorem raiseWarning_encPendV (k : Warning) (s : State) : (raiseWarning k s).encPendV = s.encPendV := rfl
@[simp] theorem raiseWarning_encPendB (k : Warning) (s : State) : (raiseWarning k s).encPendB = s.encPendB := rfl
@[simp] theorem raiseWarning_encFin (k : Warning) (s : State) : (raiseWarning k s).encFin = s.encFin := rfl
@[simp] theorem raiseWarning_decSt (k : Warning) (s : State) : (raiseWarning k s).decSt = s.decSt := rfl
@[simp] theorem raiseWarning_decCnt (k : Warning) (s : State) : (raiseWarning k s).decCnt = s.decCnt := rfl
@[simp] theorem raiseWarning_decVal (k : Warning) (s : State) : (raiseWarning k s).decVal = s.decVal := rfl
@[simp] theorem raiseWarning_srcSeen (k : Warning) (s : State) : (raiseWarning k s).srcSeen = s.srcSeen := rfl
@[simp] theorem raiseWarning_srcRest (k : Warning) (s : State) : (raiseWarning k s).srcRest = s.srcRest := rfl
@[simp] theorem raiseWarning_out (k : Warning) (s : State) : (raiseWarning k s).out = s.out := rfl
@[simp] theorem raiseWarning_warnLog (k : Warning) (s : State) : (raiseWarning k s).warnLog = s.warnLog ++ [k] := rfl
@[simp] theorem raiseWarning_warnPulse (k : Warning) (s : State) : (raiseWarning k s).warnPulse = some k := rfl
@[simp] theorem raiseWarning_snkAns (k : Warning) (s : State) : (raiseWarning k s).snkAns = s.snkAns := rfl
@[simp] theorem raiseWarning_host (k : Warning) (s : State) : (raiseWarning k s).host = s.host := rfl
@[simp] theorem raiseWarning_rst (k : Warning) (s : State) : (raiseWarning k s).rst = s.rst := rfl
@[simp] theorem raiseWarning_rstCount (k : Warning) (s : State) : (raiseWarning k s).rstCount = s.rstCount := rfl

@[simp] theorem beginOperation_ctlSt (s : State) : (beginOperation s).ctlSt = s.ctlSt := rfl
@[simp] theorem beginOperation_ctlOutcome (s : State) : (beginOperation s).ctlOutcome = s.ctlOutcome := rfl
@[simp] theorem beginOperation_encSt (s : State) : (beginOperation s).encSt = s.encSt := rfl
@[simp] theorem beginOperation_encVal (s : State) : (beginOperation s).encVal = s.encVal := rfl
@[simp] theorem beginOperation_encCnt (s : State) : (beginOperation s).encCnt = s.encCnt := rfl
@[simp] theorem beginOperation_encPendV (s : State) : (beginOperation s).encPendV = s.encPendV := rfl
@[simp] theorem beginOperation_encPendB (s : State) : (beginOperation s).encPendB = s.encPendB := rfl
@[simp] theorem beginOperation_encFin (s : State) : (beginOperation s).encFin = s.encFin := rfl
@[simp] theorem beginOperation_decSt (s : State) : (beginOperation s).decSt = s.decSt := rfl
@[simp] theorem beginOperation_decCnt (s : State) : (beginOperation s).decCnt = s.decCnt := rfl
@[simp] theorem beginOperation_decVal (s : State) : (beginOperation s).decVal = s.decVal := rfl
@[simp] theorem beginOperation_srcSeen (s : State) : (beginOperation s).srcSeen = [] := rfl
@[simp] theorem beginOperation_srcRest (s : State) : (beginOperation s).srcRest = s.srcRest := rfl
@[simp] theorem beginOperation_out (s : State) : (beginOperation s).out = [] := rfl
@[simp] theorem beginOperation_warnLog (s : State) : (beginOperation s).warnLog = [] := rfl
@[simp] theorem beginOperation_warnPulse (s : State) : (beginOperation s).warnPulse = s.warnPulse := rfl
@[simp] theorem beginOperation_snkAns (s : State) : (beginOperation s).snkAns = s.snkAns := rfl
@[simp] theorem beginOperation_host (s : State) : (beginOperation s).host = s.host := rfl
@[simp] theorem beginOperation_rst (s : State) : (beginOperation s).rst = s.rst := rfl
@[simp] theorem beginOperation_rstCount (s : State) : (beginOperation s).rstCount = s.rstCount := rfl

@[simp] theorem startEncode_ctlSt (s : State) : (startEncode s).ctlSt = .cEnc := rfl
@[simp] theorem startEncode_ctlOutcome (s : State) : (startEncode s).ctlOutcome = .noOutcome := rfl
@[simp] theorem startEncode_encSt (s : State) : (startEncode s).encSt = .eFirst := rfl
@[simp] theorem startEncode_encVal (s : State) : (startEncode s).encVal = s.encVal := rfl
@[simp] theorem startEncode_encCnt (s : State) : (startEncode s).encCnt = s.encCnt := rfl
@[simp] theorem startEncode_encPendV (s : State) : (startEncode s).encPendV = false := rfl
@[simp] theorem startEncode_encPendB (s : State) : (startEncode s).encPendB = s.encPendB := rfl
@[simp] theorem startEncode_encFin (s : State) : (startEncode s).encFin = .fNone := rfl
@[simp] theorem startEncode_decSt (s : State) : (startEncode s).decSt = s.decSt := rfl
@[simp] theorem startEncode_decCnt (s : State) : (startEncode s).decCnt = s.decCnt := rfl
@[simp] theorem startEncode_decVal (s : State) : (startEncode s).decVal = s.decVal := rfl
@[simp] theorem startEncode_srcSeen (s : State) : (startEncode s).srcSeen = [] := rfl
@[simp] theorem startEncode_srcRest (s : State) : (startEncode s).srcRest = s.srcRest := rfl
@[simp] theorem startEncode_out (s : State) : (startEncode s).out = [] := rfl
@[simp] theorem startEncode_warnLog (s : State) : (startEncode s).warnLog = [] := rfl
@[simp] theorem startEncode_warnPulse (s : State) : (startEncode s).warnPulse = s.warnPulse := rfl
@[simp] theorem startEncode_snkAns (s : State) : (startEncode s).snkAns = s.snkAns := rfl
@[simp] theorem startEncode_host (s : State) : (startEncode s).host = s.host := rfl
@[simp] theorem startEncode_rst (s : State) : (startEncode s).rst = s.rst := rfl
@[simp] theorem startEncode_rstCount (s : State) : (startEncode s).rstCount = s.rstCount := rfl

@[simp] theorem startDecode_ctlSt (s : State) : (startDecode s).ctlSt = .cDec := rfl
@[simp] theorem startDecode_ctlOutcome (s : State) : (startDecode s).ctlOutcome = .noOutcome := rfl
@[simp] theorem startDecode_encSt (s : State) : (startDecode s).encSt = s.encSt := rfl
@[simp] theorem startDecode_encVal (s : State) : (startDecode s).encVal = s.encVal := rfl
@[simp] theorem startDecode_encCnt (s : State) : (startDecode s).encCnt = s.encCnt := rfl
@[simp] theorem startDecode_encPendV (s : State) : (startDecode s).encPendV = s.encPendV := rfl
@[simp] theorem startDecode_encPendB (s : State) : (startDecode s).encPendB = s.encPendB := rfl
@[simp] theorem startDecode_encFin (s : State) : (startDecode s).encFin = s.encFin := rfl
@[simp] theorem startDecode_decSt (s : State) : (startDecode s).decSt = .dCnt := rfl
@[simp] theorem startDecode_decCnt (s : State) : (startDecode s).decCnt = s.decCnt := rfl
@[simp] theorem startDecode_decVal (s : State) : (startDecode s).decVal = s.decVal := rfl
@[simp] theorem startDecode_srcSeen (s : State) : (startDecode s).srcSeen = [] := rfl
@[simp] theorem startDecode_srcRest (s : State) : (startDecode s).srcRest = s.srcRest := rfl
@[simp] theorem startDecode_out (s : State) : (startDecode s).out = [] := rfl
@[simp] theorem startDecode_warnLog (s : State) : (startDecode s).warnLog = [] := rfl
@[simp] theorem startDecode_warnPulse (s : State) : (startDecode s).warnPulse = s.warnPulse := rfl
@[simp] theorem startDecode_snkAns (s : State) : (startDecode s).snkAns = s.snkAns := rfl
@[simp] theorem startDecode_host (s : State) : (startDecode s).host = s.host := rfl
@[simp] theorem startDecode_rst (s : State) : (startDecode s).rst = s.rst := rfl
@[simp] theorem startDecode_rstCount (s : State) : (startDecode s).rstCount = s.rstCount := rfl

@[simp] theorem refuseStart_ctlSt (o : OpOutcome) (s : State) : (refuseStart o s).ctlSt = .cDone := rfl
@[simp] theorem refuseStart_ctlOutcome (o : OpOutcome) (s : State) : (refuseStart o s).ctlOutcome = o := rfl
@[simp] theorem refuseStart_encSt (o : OpOutcome) (s : State) : (refuseStart o s).encSt = .eIdle := rfl
@[simp] theorem refuseStart_encVal (o : OpOutcome) (s : State) : (refuseStart o s).encVal = s.encVal := rfl
@[simp] theorem refuseStart_encCnt (o : OpOutcome) (s : State) : (refuseStart o s).encCnt = s.encCnt := rfl
@[simp] theorem refuseStart_encPendV (o : OpOutcome) (s : State) : (refuseStart o s).encPendV = s.encPendV := rfl
@[simp] theorem refuseStart_encPendB (o : OpOutcome) (s : State) : (refuseStart o s).encPendB = s.encPendB := rfl
@[simp] theorem refuseStart_encFin (o : OpOutcome) (s : State) : (refuseStart o s).encFin = s.encFin := rfl
@[simp] theorem refuseStart_decSt (o : OpOutcome) (s : State) : (refuseStart o s).decSt = .dIdle := rfl
@[simp] theorem refuseStart_decCnt (o : OpOutcome) (s : State) : (refuseStart o s).decCnt = s.decCnt := rfl
@[simp] theorem refuseStart_decVal (o : OpOutcome) (s : State) : (refuseStart o s).decVal = s.decVal := rfl
@[simp] theorem refuseStart_srcSeen (o : OpOutcome) (s : State) : (refuseStart o s).srcSeen = [] := rfl
@[simp] theorem refuseStart_srcRest (o : OpOutcome) (s : State) : (refuseStart o s).srcRest = s.srcRest := rfl
@[simp] theorem refuseStart_out (o : OpOutcome) (s : State) : (refuseStart o s).out = [] := rfl
@[simp] theorem refuseStart_warnLog (o : OpOutcome) (s : State) : (refuseStart o s).warnLog = [] := rfl
@[simp] theorem refuseStart_warnPulse (o : OpOutcome) (s : State) : (refuseStart o s).warnPulse = s.warnPulse := rfl
@[simp] theorem refuseStart_snkAns (o : OpOutcome) (s : State) : (refuseStart o s).snkAns = s.snkAns := rfl
@[simp] theorem refuseStart_host (o : OpOutcome) (s : State) : (refuseStart o s).host = s.host := rfl
@[simp] theorem refuseStart_rst (o : OpOutcome) (s : State) : (refuseStart o s).rst = s.rst := rfl
@[simp] theorem refuseStart_rstCount (o : OpOutcome) (s : State) : (refuseStart o s).rstCount = s.rstCount := rfl

@[simp] theorem openRun_ctlSt (b : Byte) (s : State) : (openRun b s).ctlSt = s.ctlSt := rfl
@[simp] theorem openRun_ctlOutcome (b : Byte) (s : State) : (openRun b s).ctlOutcome = s.ctlOutcome := rfl
@[simp] theorem openRun_encSt (b : Byte) (s : State) : (openRun b s).encSt = .eScan := rfl
@[simp] theorem openRun_encVal (b : Byte) (s : State) : (openRun b s).encVal = b := rfl
@[simp] theorem openRun_encCnt (b : Byte) (s : State) : (openRun b s).encCnt = 1#9 := rfl
@[simp] theorem openRun_encPendV (b : Byte) (s : State) : (openRun b s).encPendV = s.encPendV := rfl
@[simp] theorem openRun_encPendB (b : Byte) (s : State) : (openRun b s).encPendB = s.encPendB := rfl
@[simp] theorem openRun_encFin (b : Byte) (s : State) : (openRun b s).encFin = s.encFin := rfl
@[simp] theorem openRun_decSt (b : Byte) (s : State) : (openRun b s).decSt = s.decSt := rfl
@[simp] theorem openRun_decCnt (b : Byte) (s : State) : (openRun b s).decCnt = s.decCnt := rfl
@[simp] theorem openRun_decVal (b : Byte) (s : State) : (openRun b s).decVal = s.decVal := rfl
@[simp] theorem openRun_srcSeen (b : Byte) (s : State) : (openRun b s).srcSeen = s.srcSeen := rfl
@[simp] theorem openRun_srcRest (b : Byte) (s : State) : (openRun b s).srcRest = s.srcRest := rfl
@[simp] theorem openRun_out (b : Byte) (s : State) : (openRun b s).out = s.out := rfl
@[simp] theorem openRun_warnLog (b : Byte) (s : State) : (openRun b s).warnLog = s.warnLog := rfl
@[simp] theorem openRun_warnPulse (b : Byte) (s : State) : (openRun b s).warnPulse = s.warnPulse := rfl
@[simp] theorem openRun_snkAns (b : Byte) (s : State) : (openRun b s).snkAns = s.snkAns := rfl
@[simp] theorem openRun_host (b : Byte) (s : State) : (openRun b s).host = s.host := rfl
@[simp] theorem openRun_rst (b : Byte) (s : State) : (openRun b s).rst = s.rst := rfl
@[simp] theorem openRun_rstCount (b : Byte) (s : State) : (openRun b s).rstCount = s.rstCount := rfl

@[simp] theorem closeRun_ctlSt (s : State) : (closeRun s).ctlSt = s.ctlSt := rfl
@[simp] theorem closeRun_ctlOutcome (s : State) : (closeRun s).ctlOutcome = s.ctlOutcome := rfl
@[simp] theorem closeRun_encSt (s : State) : (closeRun s).encSt = .eEmitC := rfl
@[simp] theorem closeRun_encVal (s : State) : (closeRun s).encVal = s.encVal := rfl
@[simp] theorem closeRun_encCnt (s : State) : (closeRun s).encCnt = s.encCnt := rfl
@[simp] theorem closeRun_encPendV (s : State) : (closeRun s).encPendV = s.encPendV := rfl
@[simp] theorem closeRun_encPendB (s : State) : (closeRun s).encPendB = s.encPendB := rfl
@[simp] theorem closeRun_encFin (s : State) : (closeRun s).encFin = s.encFin := rfl
@[simp] theorem closeRun_decSt (s : State) : (closeRun s).decSt = s.decSt := rfl
@[simp] theorem closeRun_decCnt (s : State) : (closeRun s).decCnt = s.decCnt := rfl
@[simp] theorem closeRun_decVal (s : State) : (closeRun s).decVal = s.decVal := rfl
@[simp] theorem closeRun_srcSeen (s : State) : (closeRun s).srcSeen = s.srcSeen := rfl
@[simp] theorem closeRun_srcRest (s : State) : (closeRun s).srcRest = s.srcRest := rfl
@[simp] theorem closeRun_out (s : State) : (closeRun s).out = s.out := rfl
@[simp] theorem closeRun_warnLog (s : State) : (closeRun s).warnLog = s.warnLog := rfl
@[simp] theorem closeRun_warnPulse (s : State) : (closeRun s).warnPulse = s.warnPulse := rfl
@[simp] theorem closeRun_snkAns (s : State) : (closeRun s).snkAns = s.snkAns := rfl
@[simp] theorem closeRun_host (s : State) : (closeRun s).host = s.host := rfl
@[simp] theorem closeRun_rst (s : State) : (closeRun s).rst = s.rst := rfl
@[simp] theorem closeRun_rstCount (s : State) : (closeRun s).rstCount = s.rstCount := rfl

@[simp] theorem acknowledge_ctlSt (b : Byte) (s : State) : (acknowledge b s).ctlSt = s.ctlSt := rfl
@[simp] theorem acknowledge_ctlOutcome (b : Byte) (s : State) : (acknowledge b s).ctlOutcome = s.ctlOutcome := rfl
@[simp] theorem acknowledge_encSt (b : Byte) (s : State) : (acknowledge b s).encSt = s.encSt := rfl
@[simp] theorem acknowledge_encVal (b : Byte) (s : State) : (acknowledge b s).encVal = s.encVal := rfl
@[simp] theorem acknowledge_encCnt (b : Byte) (s : State) : (acknowledge b s).encCnt = s.encCnt := rfl
@[simp] theorem acknowledge_encPendV (b : Byte) (s : State) : (acknowledge b s).encPendV = s.encPendV := rfl
@[simp] theorem acknowledge_encPendB (b : Byte) (s : State) : (acknowledge b s).encPendB = s.encPendB := rfl
@[simp] theorem acknowledge_encFin (b : Byte) (s : State) : (acknowledge b s).encFin = s.encFin := rfl
@[simp] theorem acknowledge_decSt (b : Byte) (s : State) : (acknowledge b s).decSt = s.decSt := rfl
@[simp] theorem acknowledge_decCnt (b : Byte) (s : State) : (acknowledge b s).decCnt = s.decCnt := rfl
@[simp] theorem acknowledge_decVal (b : Byte) (s : State) : (acknowledge b s).decVal = s.decVal := rfl
@[simp] theorem acknowledge_srcSeen (b : Byte) (s : State) : (acknowledge b s).srcSeen = s.srcSeen := rfl
@[simp] theorem acknowledge_srcRest (b : Byte) (s : State) : (acknowledge b s).srcRest = s.srcRest := rfl
@[simp] theorem acknowledge_out (b : Byte) (s : State) : (acknowledge b s).out = s.out ++ [b] := rfl
@[simp] theorem acknowledge_warnLog (b : Byte) (s : State) : (acknowledge b s).warnLog = s.warnLog := rfl
@[simp] theorem acknowledge_warnPulse (b : Byte) (s : State) : (acknowledge b s).warnPulse = s.warnPulse := rfl
@[simp] theorem acknowledge_snkAns (b : Byte) (s : State) : (acknowledge b s).snkAns = s.snkAns := rfl
@[simp] theorem acknowledge_host (b : Byte) (s : State) : (acknowledge b s).host = s.host := rfl
@[simp] theorem acknowledge_rst (b : Byte) (s : State) : (acknowledge b s).rst = s.rst := rfl
@[simp] theorem acknowledge_rstCount (b : Byte) (s : State) : (acknowledge b s).rstCount = s.rstCount := rfl

@[simp] theorem attach_ctlSt (l : Launch) (r : List Launch) (s : State) : (attach l r s).ctlSt = s.ctlSt := rfl
@[simp] theorem attach_ctlOutcome (l : Launch) (r : List Launch) (s : State) : (attach l r s).ctlOutcome = s.ctlOutcome := rfl
@[simp] theorem attach_encSt (l : Launch) (r : List Launch) (s : State) : (attach l r s).encSt = s.encSt := rfl
@[simp] theorem attach_encVal (l : Launch) (r : List Launch) (s : State) : (attach l r s).encVal = s.encVal := rfl
@[simp] theorem attach_encCnt (l : Launch) (r : List Launch) (s : State) : (attach l r s).encCnt = s.encCnt := rfl
@[simp] theorem attach_encPendV (l : Launch) (r : List Launch) (s : State) : (attach l r s).encPendV = s.encPendV := rfl
@[simp] theorem attach_encPendB (l : Launch) (r : List Launch) (s : State) : (attach l r s).encPendB = s.encPendB := rfl
@[simp] theorem attach_encFin (l : Launch) (r : List Launch) (s : State) : (attach l r s).encFin = s.encFin := rfl
@[simp] theorem attach_decSt (l : Launch) (r : List Launch) (s : State) : (attach l r s).decSt = s.decSt := rfl
@[simp] theorem attach_decCnt (l : Launch) (r : List Launch) (s : State) : (attach l r s).decCnt = s.decCnt := rfl
@[simp] theorem attach_decVal (l : Launch) (r : List Launch) (s : State) : (attach l r s).decVal = s.decVal := rfl
@[simp] theorem attach_srcSeen (l : Launch) (r : List Launch) (s : State) : (attach l r s).srcSeen = s.srcSeen := rfl
@[simp] theorem attach_srcRest (l : Launch) (r : List Launch) (s : State) : (attach l r s).srcRest = l.src := rfl
@[simp] theorem attach_out (l : Launch) (r : List Launch) (s : State) : (attach l r s).out = s.out := rfl
@[simp] theorem attach_warnLog (l : Launch) (r : List Launch) (s : State) : (attach l r s).warnLog = s.warnLog := rfl
@[simp] theorem attach_warnPulse (l : Launch) (r : List Launch) (s : State) : (attach l r s).warnPulse = s.warnPulse := rfl
@[simp] theorem attach_snkAns (l : Launch) (r : List Launch) (s : State) : (attach l r s).snkAns = l.snk := rfl
@[simp] theorem attach_host (l : Launch) (r : List Launch) (s : State) : (attach l r s).host = r := rfl
@[simp] theorem attach_rst (l : Launch) (r : List Launch) (s : State) : (attach l r s).rst = s.rst := rfl
@[simp] theorem attach_rstCount (l : Launch) (r : List Launch) (s : State) : (attach l r s).rstCount = s.rstCount := rfl

@[simp] theorem deliver_ctlSt (t : TokWord) (r : List TokWord) (s : State) : (deliver t r s).ctlSt = s.ctlSt := rfl
@[simp] theorem deliver_ctlOutcome (t : TokWord) (r : List TokWord) (s : State) : (deliver t r s).ctlOutcome = s.ctlOutcome := rfl
@[simp] theorem deliver_encSt (t : TokWord) (r : List TokWord) (s : State) : (deliver t r s).encSt = s.encSt := rfl
@[simp] theorem deliver_encVal (t : TokWord) (r : List TokWord) (s : State) : (deliver t r s).encVal = s.encVal := rfl
@[simp] theorem deliver_encCnt (t : TokWord) (r : List TokWord) (s : State) : (deliver t r s).encCnt = s.encCnt := rfl
@[simp] theorem deliver_encPendV (t : TokWord) (r : List TokWord) (s : State) : (deliver t r s).encPendV = s.encPendV := rfl
@[simp] theorem deliver_encPendB (t : TokWord) (r : List TokWord) (s : State) : (deliver t r s).encPendB = s.encPendB := rfl
@[simp] theorem deliver_encFin (t : TokWord) (r : List TokWord) (s : State) : (deliver t r s).encFin = s.encFin := rfl
@[simp] theorem deliver_decSt (t : TokWord) (r : List TokWord) (s : State) : (deliver t r s).decSt = s.decSt := rfl
@[simp] theorem deliver_decCnt (t : TokWord) (r : List TokWord) (s : State) : (deliver t r s).decCnt = s.decCnt := rfl
@[simp] theorem deliver_decVal (t : TokWord) (r : List TokWord) (s : State) : (deliver t r s).decVal = s.decVal := rfl
@[simp] theorem deliver_srcSeen (t : TokWord) (r : List TokWord) (s : State) : (deliver t r s).srcSeen = s.srcSeen ++ [TokWord.token t] := rfl
@[simp] theorem deliver_srcRest (t : TokWord) (r : List TokWord) (s : State) : (deliver t r s).srcRest = r := rfl
@[simp] theorem deliver_out (t : TokWord) (r : List TokWord) (s : State) : (deliver t r s).out = s.out := rfl
@[simp] theorem deliver_warnLog (t : TokWord) (r : List TokWord) (s : State) : (deliver t r s).warnLog = s.warnLog := rfl
@[simp] theorem deliver_warnPulse (t : TokWord) (r : List TokWord) (s : State) : (deliver t r s).warnPulse = s.warnPulse := rfl
@[simp] theorem deliver_snkAns (t : TokWord) (r : List TokWord) (s : State) : (deliver t r s).snkAns = s.snkAns := rfl
@[simp] theorem deliver_host (t : TokWord) (r : List TokWord) (s : State) : (deliver t r s).host = s.host := rfl
@[simp] theorem deliver_rst (t : TokWord) (r : List TokWord) (s : State) : (deliver t r s).rst = s.rst := rfl
@[simp] theorem deliver_rstCount (t : TokWord) (r : List TokWord) (s : State) : (deliver t r s).rstCount = s.rstCount := rfl

@[simp] theorem clearPulse_ctlSt (s : State) : (clearPulse s).ctlSt = s.ctlSt := rfl
@[simp] theorem clearPulse_ctlOutcome (s : State) : (clearPulse s).ctlOutcome = s.ctlOutcome := rfl
@[simp] theorem clearPulse_encSt (s : State) : (clearPulse s).encSt = s.encSt := rfl
@[simp] theorem clearPulse_encVal (s : State) : (clearPulse s).encVal = s.encVal := rfl
@[simp] theorem clearPulse_encCnt (s : State) : (clearPulse s).encCnt = s.encCnt := rfl
@[simp] theorem clearPulse_encPendV (s : State) : (clearPulse s).encPendV = s.encPendV := rfl
@[simp] theorem clearPulse_encPendB (s : State) : (clearPulse s).encPendB = s.encPendB := rfl
@[simp] theorem clearPulse_encFin (s : State) : (clearPulse s).encFin = s.encFin := rfl
@[simp] theorem clearPulse_decSt (s : State) : (clearPulse s).decSt = s.decSt := rfl
@[simp] theorem clearPulse_decCnt (s : State) : (clearPulse s).decCnt = s.decCnt := rfl
@[simp] theorem clearPulse_decVal (s : State) : (clearPulse s).decVal = s.decVal := rfl
@[simp] theorem clearPulse_srcSeen (s : State) : (clearPulse s).srcSeen = s.srcSeen := rfl
@[simp] theorem clearPulse_srcRest (s : State) : (clearPulse s).srcRest = s.srcRest := rfl
@[simp] theorem clearPulse_out (s : State) : (clearPulse s).out = s.out := rfl
@[simp] theorem clearPulse_warnLog (s : State) : (clearPulse s).warnLog = s.warnLog := rfl
@[simp] theorem clearPulse_warnPulse (s : State) : (clearPulse s).warnPulse = none := rfl
@[simp] theorem clearPulse_snkAns (s : State) : (clearPulse s).snkAns = s.snkAns := rfl
@[simp] theorem clearPulse_host (s : State) : (clearPulse s).host = s.host := rfl
@[simp] theorem clearPulse_rst (s : State) : (clearPulse s).rst = s.rst := rfl
@[simp] theorem clearPulse_rstCount (s : State) : (clearPulse s).rstCount = s.rstCount := rfl

@[simp] theorem answered_ctlSt (r : List WrespWord) (s : State) : (answered r s).ctlSt = s.ctlSt := rfl
@[simp] theorem answered_ctlOutcome (r : List WrespWord) (s : State) : (answered r s).ctlOutcome = s.ctlOutcome := rfl
@[simp] theorem answered_encSt (r : List WrespWord) (s : State) : (answered r s).encSt = s.encSt := rfl
@[simp] theorem answered_encVal (r : List WrespWord) (s : State) : (answered r s).encVal = s.encVal := rfl
@[simp] theorem answered_encCnt (r : List WrespWord) (s : State) : (answered r s).encCnt = s.encCnt := rfl
@[simp] theorem answered_encPendV (r : List WrespWord) (s : State) : (answered r s).encPendV = s.encPendV := rfl
@[simp] theorem answered_encPendB (r : List WrespWord) (s : State) : (answered r s).encPendB = s.encPendB := rfl
@[simp] theorem answered_encFin (r : List WrespWord) (s : State) : (answered r s).encFin = s.encFin := rfl
@[simp] theorem answered_decSt (r : List WrespWord) (s : State) : (answered r s).decSt = s.decSt := rfl
@[simp] theorem answered_decCnt (r : List WrespWord) (s : State) : (answered r s).decCnt = s.decCnt := rfl
@[simp] theorem answered_decVal (r : List WrespWord) (s : State) : (answered r s).decVal = s.decVal := rfl
@[simp] theorem answered_srcSeen (r : List WrespWord) (s : State) : (answered r s).srcSeen = s.srcSeen := rfl
@[simp] theorem answered_srcRest (r : List WrespWord) (s : State) : (answered r s).srcRest = s.srcRest := rfl
@[simp] theorem answered_out (r : List WrespWord) (s : State) : (answered r s).out = s.out := rfl
@[simp] theorem answered_warnLog (r : List WrespWord) (s : State) : (answered r s).warnLog = s.warnLog := rfl
@[simp] theorem answered_warnPulse (r : List WrespWord) (s : State) : (answered r s).warnPulse = s.warnPulse := rfl
@[simp] theorem answered_snkAns (r : List WrespWord) (s : State) : (answered r s).snkAns = r := rfl
@[simp] theorem answered_host (r : List WrespWord) (s : State) : (answered r s).host = s.host := rfl
@[simp] theorem answered_rst (r : List WrespWord) (s : State) : (answered r s).rst = s.rst := rfl
@[simp] theorem answered_rstCount (r : List WrespWord) (s : State) : (answered r s).rstCount = s.rstCount := rfl

@[simp] theorem countOff_ctlSt (s : State) : (countOff s).ctlSt = s.ctlSt := rfl
@[simp] theorem countOff_ctlOutcome (s : State) : (countOff s).ctlOutcome = s.ctlOutcome := rfl
@[simp] theorem countOff_encSt (s : State) : (countOff s).encSt = s.encSt := rfl
@[simp] theorem countOff_encVal (s : State) : (countOff s).encVal = s.encVal := rfl
@[simp] theorem countOff_encCnt (s : State) : (countOff s).encCnt = s.encCnt := rfl
@[simp] theorem countOff_encPendV (s : State) : (countOff s).encPendV = s.encPendV := rfl
@[simp] theorem countOff_encPendB (s : State) : (countOff s).encPendB = s.encPendB := rfl
@[simp] theorem countOff_encFin (s : State) : (countOff s).encFin = s.encFin := rfl
@[simp] theorem countOff_decSt (s : State) : (countOff s).decSt = if dec s.decCnt = 0#8 then .dCnt else s.decSt := rfl
@[simp] theorem countOff_decCnt (s : State) : (countOff s).decCnt = dec s.decCnt := rfl
@[simp] theorem countOff_decVal (s : State) : (countOff s).decVal = s.decVal := rfl
@[simp] theorem countOff_srcSeen (s : State) : (countOff s).srcSeen = s.srcSeen := rfl
@[simp] theorem countOff_srcRest (s : State) : (countOff s).srcRest = s.srcRest := rfl
@[simp] theorem countOff_out (s : State) : (countOff s).out = s.out := rfl
@[simp] theorem countOff_warnLog (s : State) : (countOff s).warnLog = s.warnLog := rfl
@[simp] theorem countOff_warnPulse (s : State) : (countOff s).warnPulse = s.warnPulse := rfl
@[simp] theorem countOff_snkAns (s : State) : (countOff s).snkAns = s.snkAns := rfl
@[simp] theorem countOff_host (s : State) : (countOff s).host = s.host := rfl
@[simp] theorem countOff_rst (s : State) : (countOff s).rst = s.rst := rfl
@[simp] theorem countOff_rstCount (s : State) : (countOff s).rstCount = s.rstCount := rfl

/-- The row `idle` of R32's table. -/
theorem phase_eq_idle (s : State) :
    s.phase = some .idle ↔ s.ctlSt = .cIdle ∧ s.encSt = .eIdle ∧ s.decSt = .dIdle := by
  unfold State.phase
  cases s.ctlSt <;> cases s.encSt <;> cases s.decSt <;> simp

/-- The row `eFirst` of R32's table. -/
theorem phase_eq_eFirst (s : State) :
    s.phase = some .eFirst ↔ s.ctlSt = .cEnc ∧ s.encSt = .eFirst ∧ s.decSt = .dIdle := by
  unfold State.phase
  cases s.ctlSt <;> cases s.encSt <;> cases s.decSt <;> simp

/-- The row `eHead` of R32's table. -/
theorem phase_eq_eHead (s : State) :
    s.phase = some .eHead ↔ s.ctlSt = .cEnc ∧ s.encSt = .eHead ∧ s.decSt = .dIdle := by
  unfold State.phase
  cases s.ctlSt <;> cases s.encSt <;> cases s.decSt <;> simp

/-- The row `eScan` of R32's table. -/
theorem phase_eq_eScan (s : State) :
    s.phase = some .eScan ↔ s.ctlSt = .cEnc ∧ s.encSt = .eScan ∧ s.decSt = .dIdle := by
  unfold State.phase
  cases s.ctlSt <;> cases s.encSt <;> cases s.decSt <;> simp

/-- The row `eEmitC` of R32's table. -/
theorem phase_eq_eEmitC (s : State) :
    s.phase = some .eEmitC ↔ s.ctlSt = .cEnc ∧ s.encSt = .eEmitC ∧ s.decSt = .dIdle := by
  unfold State.phase
  cases s.ctlSt <;> cases s.encSt <;> cases s.decSt <;> simp

/-- The row `eEmitV` of R32's table. -/
theorem phase_eq_eEmitV (s : State) :
    s.phase = some .eEmitV ↔ s.ctlSt = .cEnc ∧ s.encSt = .eEmitV ∧ s.decSt = .dIdle := by
  unfold State.phase
  cases s.ctlSt <;> cases s.encSt <;> cases s.decSt <;> simp

/-- The row `dCnt` of R32's table. -/
theorem phase_eq_dCnt (s : State) :
    s.phase = some .dCnt ↔ s.ctlSt = .cDec ∧ s.encSt = .eIdle ∧ s.decSt = .dCnt := by
  unfold State.phase
  cases s.ctlSt <;> cases s.encSt <;> cases s.decSt <;> simp

/-- The row `dVal` of R32's table. -/
theorem phase_eq_dVal (s : State) :
    s.phase = some .dVal ↔ s.ctlSt = .cDec ∧ s.encSt = .eIdle ∧ s.decSt = .dVal := by
  unfold State.phase
  cases s.ctlSt <;> cases s.encSt <;> cases s.decSt <;> simp

/-- The row `dExp` of R32's table. -/
theorem phase_eq_dExp (s : State) :
    s.phase = some .dExp ↔ s.ctlSt = .cDec ∧ s.encSt = .eIdle ∧ s.decSt = .dExp := by
  unfold State.phase
  cases s.ctlSt <;> cases s.encSt <;> cases s.decSt <;> simp

/-- The row `done` of R32's table. -/
theorem phase_eq_done (s : State) :
    s.phase = some .done ↔ s.ctlSt = .cDone ∧ s.encSt = .eIdle ∧ s.decSt = .dIdle := by
  unfold State.phase
  cases s.ctlSt <;> cases s.encSt <;> cases s.decSt <;> simp

@[simp] theorem finish_phase (o : OpOutcome) (s : State) : (finish o s).phase = some .done := rfl
@[simp] theorem refuseStart_phase (o : OpOutcome) (s : State) : (refuseStart o s).phase = some .done := rfl
@[simp] theorem raiseWarning_phase (k : Warning) (s : State) : (raiseWarning k s).phase = s.phase := rfl
@[simp] theorem beginOperation_phase (s : State) : (beginOperation s).phase = s.phase := rfl
@[simp] theorem acknowledge_phase (b : Byte) (s : State) : (acknowledge b s).phase = s.phase := rfl
@[simp] theorem attach_phase (l : Launch) (r : List Launch) (s : State) : (attach l r s).phase = s.phase := rfl
@[simp] theorem deliver_phase (t : TokWord) (r : List TokWord) (s : State) : (deliver t r s).phase = s.phase := rfl
@[simp] theorem answered_phase (r : List WrespWord) (s : State) : (answered r s).phase = s.phase := rfl
@[simp] theorem clearPulse_phase (s : State) : (clearPulse s).phase = s.phase := rfl

/-- `CTL.st` decides what a legal phase is busy with. -/
theorem phase_of_enc {s : State} (h : s.phase ≠ none) (hc : s.ctlSt = .cEnc) :
    s.phase = some .eFirst ∨ s.phase = some .eHead ∨ s.phase = some .eScan ∨
      s.phase = some .eEmitC ∨ s.phase = some .eEmitV := by
  unfold State.phase at *
  revert h
  rw [hc]
  cases s.encSt <;> cases s.decSt <;> simp

/-- The same for the decoder. -/
theorem phase_of_dec {s : State} (h : s.phase ≠ none) (hc : s.ctlSt = .cDec) :
    s.phase = some .dCnt ∨ s.phase = some .dVal ∨ s.phase = some .dExp := by
  unfold State.phase at *
  revert h
  rw [hc]
  cases s.encSt <;> cases s.decSt <;> simp

end Sys2Proof.Machine
end

