-- ==== Sys2Proof/Laws/Ops.lean ====
section
/-!
SUPPORT. What each shared operation can do, said once: when a meaning answers, what a token, an answer
and a step without an access leave alone, and the inversion of `step`.
-/

namespace Sys2Proof.Machine

/-- A meaning answers exactly in the ten phases. -/
theorem inPhase_next (s t u : State) : inPhase s t = .next u ↔ s.phase ≠ none ∧ t = u := by
  unfold inPhase
  cases s.phase <;> simp

theorem inPhase_of_phase {s : State} {p : Phase} (h : s.phase = some p) (t : State) :
    inPhase s t = .next t := by
  unfold inPhase
  rw [h]

theorem inPhase_stuck {s : State} (h : s.phase = none) (t : State) :
    inPhase s t = .fault .noStepRule := by
  unfold inPhase
  rw [h]

/-- The core is ready for a command exactly in two of the ten phases. -/
theorem cmdReady_of_phase {s : State} (h : s.phase ≠ none) :
    cmdReady s = true ↔ s.phase = some .idle ∨ s.phase = some .done := by
  unfold cmdReady State.phase at *
  revert h
  cases s.ctlSt <;> cases s.encSt <;> cases s.decSt <;> simp

/-- What a field of `State` read as `f` must satisfy for a token to leave it alone. -/
theorem takeToken_keeps {α : Type} (f : State → α) (t : Token) (s : State)
    (hfin : ∀ o r, f (finish o r) = f r) (hopen : ∀ b r, f (openRun b r) = f r)
    (hscan : ∀ r, f (scanToken t r) = f r)
    (hcnt : ∀ b r, f { r with decCnt := b, decSt := .dVal } = f r)
    (hval : ∀ r, f (valueToken t r) = f r) : f (takeToken t s) = f s := by
  unfold takeToken
  cases s.phase with
  | none => rfl
  | some p =>
    cases p <;> cases t <;> simp only [] <;> (try split) <;>
      first | rfl | exact hfin _ _ | exact hopen _ _ | exact hscan _ | exact hcnt _ _ | exact hval _

/-- A token leaves the ports, `O` and the delivered tokens as they are: the fetch has moved it. -/
theorem takeToken_ports (t : Token) (s : State) :
    (takeToken t s).host = s.host ∧ (takeToken t s).srcRest = s.srcRest ∧
    (takeToken t s).srcSeen = s.srcSeen ∧ (takeToken t s).snkAns = s.snkAns ∧
    (takeToken t s).out = s.out ∧ (takeToken t s).rst = s.rst ∧
    (takeToken t s).rstCount = s.rstCount := by
  refine ⟨?_, ?_, ?_, ?_, ?_, ?_, ?_⟩ <;>
    · apply takeToken_keeps (t := t)
      · intros; rfl
      · intros; rfl
      · intro r; cases t <;> simp only [scanToken] <;> (try split) <;> rfl
      · intros; rfl
      · intro r; cases t <;> simp only [valueToken] <;> (try split) <;> rfl

/-- A token without a transfer changes nothing. -/
theorem takeToken_idle {s : State} (h : srcReady s = false) (t : Token) : takeToken t s = s := by
  unfold srcReady at h
  unfold takeToken
  cases hp : s.phase with
  | none => rfl
  | some p => cases p <;> simp_all

/-- A token keeps the phase legal. -/
theorem takeToken_phase {s : State} (h : s.phase ≠ none) (t : Token) :
    (takeToken t s).phase ≠ none := by
  unfold takeToken
  cases hp : s.phase with
  | none => exact absurd hp h
  | some p =>
    cases p <;> cases t <;> simp only [scanToken, valueToken] <;> (try split) <;> (try split) <;>
      simp_all [State.phase, finish, openRun, closeRun, raiseWarning] <;>
      (split at hp <;> simp_all)

/-- An answer `OK` appends the offered byte, if there is one. -/
theorem answerOk_out (s : State) :
    (answerOk s).out = s.out ++ (snkData s).toList := by
  unfold answerOk snkData snkValid
  cases hp : s.phase with
  | none => simp
  | some p =>
    cases p <;> simp only [afterPair] <;> (try split) <;> simp_all

/-- An answer `OK` leaves the ports, `W` and the delivered tokens as they are. -/
theorem answerOk_ports (s : State) :
    (answerOk s).host = s.host ∧ (answerOk s).srcRest = s.srcRest ∧
    (answerOk s).srcSeen = s.srcSeen ∧ (answerOk s).snkAns = s.snkAns ∧
    (answerOk s).warnLog = s.warnLog ∧ (answerOk s).warnPulse = s.warnPulse ∧
    (answerOk s).rst = s.rst ∧ (answerOk s).rstCount = s.rstCount := by
  unfold answerOk
  cases s.phase with
  | none => simp
  | some p =>
    cases p <;> simp only [afterPair] <;> (try split) <;> simp

/-- An answer `OK` keeps the phase legal. -/
theorem answerOk_phase {s : State} (h : s.phase ≠ none) : (answerOk s).phase ≠ none := by
  unfold answerOk
  cases hp : s.phase with
  | none => exact absurd hp h
  | some p =>
    cases p <;> simp only [afterPair] <;> (try split) <;>
      simp_all [State.phase] <;> (try split) <;> (split at hp <;> simp_all)

/-- An answer `FAIL` ends the operation where a byte is offered, and changes nothing elsewhere. -/
theorem answerFail_eq (s : State) :
    answerFail s = if snkValid s = true then finish .errWrite s else s := rfl

/-- A step without an access touches no port, no token and no output. -/
theorem internalStep_ports (s : State) :
    (internalStep s).host = s.host ∧ (internalStep s).srcRest = s.srcRest ∧
    (internalStep s).srcSeen = s.srcSeen ∧ (internalStep s).snkAns = s.snkAns ∧
    (internalStep s).out = s.out ∧ (internalStep s).warnLog = s.warnLog ∧
    (internalStep s).warnPulse = s.warnPulse ∧ (internalStep s).rst = s.rst := by
  unfold internalStep
  cases s.phase with
  | none => simp
  | some p => cases p <;> simp only [] <;> (try split) <;> simp

/-- A step without an access keeps the phase legal. -/
theorem internalStep_phase {s : State} (h : s.phase ≠ none) : (internalStep s).phase ≠ none := by
  unfold internalStep
  cases hp : s.phase with
  | none => exact absurd hp h
  | some p =>
    cases p <;> simp only [] <;> (try split) <;>
      simp_all [State.phase, finish, openRun, closeRun] <;> split at hp <;> simp_all

/-- The pulse of the step before plays no part in what comes next. -/
@[simp] theorem clearPulse_access (s : State) : access (clearPulse s) = access s := rfl
@[simp] theorem clearPulse_srcReady (s : State) : srcReady (clearPulse s) = srcReady s := rfl
@[simp] theorem clearPulse_snkValid (s : State) : snkValid (clearPulse s) = snkValid s := rfl
@[simp] theorem clearPulse_snkData (s : State) : snkData (clearPulse s) = snkData s := rfl
@[simp] theorem clearPulse_cmdReady (s : State) : cmdReady (clearPulse s) = cmdReady s := rfl

/-- The four accesses against the port outputs (R36). -/
theorem access_command (s : State) :
    access s = some .command ↔ s.phase = some .idle ∨ s.phase = some .done := by
  unfold access
  cases s.phase with
  | none => simp
  | some p => cases p <;> simp <;> (try split) <;> simp

theorem access_source (s : State) : access s = some .source ↔ srcReady s = true := by
  unfold access srcReady
  cases s.phase with
  | none => simp
  | some p => cases p <;> simp; split <;> simp

theorem access_sink (s : State) : access s = some .sink ↔ snkValid s = true := by
  unfold access snkValid
  cases s.phase with
  | none => simp
  | some p => cases p <;> simp <;> (try split) <;> simp_all

theorem access_none (s : State) : access s = none ↔ s.phase = none := by
  unfold access
  cases s.phase with
  | none => simp
  | some p => cases p <;> simp <;> (try split) <;> simp

/-- A token word in an encoder phase, at a boundary, or after a count acts as its token. -/
theorem exec_readToken (s : State) (t : TokWord) (r : State) (hp : r.phase = s.phase)
    (hc : r.decCnt = s.decCnt) :
    exec (readToken s t) r = inPhase r (takeToken (TokWord.token t) r) := by
  have hhigh : ∀ c d : Byte, (c ++ d).extractLsb' 8 8 = c := extract_append_high
  have hlow : ∀ c d : Byte, (c ++ d).extractLsb' 0 8 = d := extract_append_low
  have htok : exec (decodeTok t) r = inPhase r (takeToken (TokWord.token t) r) := by
    unfold decodeTok TokWord.token
    split_ifs <;> rfl
  unfold readToken
  cases hs : s.phase with
  | none => exact htok
  | some p =>
    rw [hs] at hp
    cases p
    case dCnt =>
      have hb : ∀ x : Token, onBoundary x r = inPhase r (takeToken x r) := fun x => by
        simp [onBoundary, hp]
      unfold decodeBoundary TokWord.token
      split_ifs
      · rfl
      · exact hb _
      · exact hb _
    case dVal =>
      have hr : ∀ x : Token, onRecord s.decCnt x r = inPhase r (takeToken x r) := fun x => by
        simp [onRecord, hp, hc]
      simp only [decodeAfterCount, decodePair, TokWord.token, hhigh, hlow]
      split_ifs with h1 h2 h2
      · rw [← hr, h2]; rfl
      · exact hr _
      · exact hr _
      · exact hr _
    all_goals exact htok

/-- The inversion of `step`: reset, a hold, one of the three transfers, or a step without an access. -/
theorem step_cases {s t : State} (h : step s = .next t) :
    (s.rst = true ∧ t = takeReset s) ∨
    (s.rst = false ∧ s.phase ≠ none ∧ t = clearPulse s) ∨
    (s.rst = false ∧ s.phase ≠ none ∧ cmdReady s = true ∧ ∃ l ls, s.host = l :: ls ∧
      exec (decodeCmd l.cmd) (attach l ls (clearPulse s)) = .next t) ∨
    (s.rst = false ∧ srcReady s = true ∧ ∃ w ws, s.srcRest = w :: ws ∧
      t = takeToken (TokWord.token w) (deliver w ws (clearPulse s))) ∨
    (s.rst = false ∧ snkValid s = true ∧ ∃ a as, s.snkAns = a :: as ∧
      t = if a = 0#1 then answerOk (answered as (clearPulse s))
          else answerFail (answered as (clearPulse s))) ∨
    (s.rst = false ∧ access s = some .internal ∧ t = internalStep (clearPulse s)) := by
  unfold step at h
  cases hr : s.rst with
  | true => left; simpa [hr] using h.symm
  | false =>
    simp only [hr, Bool.false_eq_true, if_false] at h
    unfold fetch at h
    simp only [clearPulse_access] at h
    cases ha : access s with
    | none => simp [ha] at h
    | some a =>
      have hph : s.phase ≠ none := fun hn => by simp [(access_none s).2 hn] at ha
      have hold : ∀ {u : State}, exec (statusInstr (clearPulse s)) (clearPulse s) = .next u →
          u = clearPulse s := by
        intro u hu
        exact ((inPhase_next _ _ _).1 hu).2.symm
      cases a with
      | command =>
        have hrdy := (cmdReady_of_phase hph).2 ((access_command s).1 ha)
        simp only [ha, clearPulse_host] at h
        cases hh : s.host with
        | nil => simp only [hh] at h; simp [hph, hold h]
        | cons l ls =>
          simp only [hh] at h
          right; right; left
          exact ⟨rfl, hph, hrdy, l, ls, rfl, h⟩
      | source =>
        have hrdy := (access_source s).1 ha
        simp only [ha, clearPulse_srcRest] at h
        cases hh : s.srcRest with
        | nil => simp only [hh] at h; simp [hph, hold h]
        | cons w ws =>
          simp only [hh] at h
          rw [exec_readToken (clearPulse s) w (deliver w ws (clearPulse s)) rfl rfl] at h
          right; right; right; left
          exact ⟨rfl, hrdy, w, ws, rfl, ((inPhase_next _ _ _).1 h).2.symm⟩
      | sink =>
        have hrdy := (access_sink s).1 ha
        simp only [ha, clearPulse_snkAns] at h
        cases hh : s.snkAns with
        | nil => simp only [hh] at h; simp [hph, hold h]
        | cons a as =>
          simp only [hh, decodeWresp] at h
          right; right; right; right; left
          refine ⟨rfl, hrdy, a, as, rfl, ?_⟩
          split_ifs at h ⊢ <;> exact ((inPhase_next _ _ _).1 h).2.symm
      | internal =>
        simp only [ha] at h
        right; right; right; right; right
        exact ⟨rfl, rfl, by simpa using h.symm⟩

/-- What a command does: the four ways a `START` goes on, in the order of its checks (R200 to R205). -/
theorem exec_decodeCmd (w : CmdWord) (s : State) :
    exec (decodeCmd w) s =
      onCommand
        (if w.extractLsb' 2 2 ≠ 0b01#2 ∧ w.extractLsb' 2 2 ≠ 0b10#2 then refuseStart .errMode
         else if w.getLsbD 1 = false then refuseStart .errOpenIn
         else if w.getLsbD 0 = false then refuseStart .errOpenOut
         else if w.extractLsb' 2 2 = 0b01#2 then startEncode else startDecode) s := by
  have key : ∀ m : BitVec 2, m = 0b00#2 ∨ m = 0b01#2 ∨ m = 0b10#2 ∨ m = 0b11#2 := by decide
  unfold decodeCmd
  rcases key (w.extractLsb' 2 2) with h | h | h | h <;>
    cases w.getLsbD 1 <;> cases w.getLsbD 0 <;> simp only [h, Config.modeCompress] <;> rfl

/-- A command keeps the phase legal. -/
theorem onCommand_phase {f : State → State} {s t : State} (h : onCommand f s = .next t) :
    s.phase ≠ none ∧ t = if cmdReady s then f s else s := by
  unfold onCommand at h
  have := (inPhase_next _ _ _).1 h
  exact ⟨this.1, this.2.symm⟩

end Sys2Proof.Machine
end

