-- ==== Sys2Proof/Laws/PerInstr.lean ====
section
/-!
SUPPORT. Facts about every instruction as syntax, one lemma per constructor: an instruction's word fits
the width of its format (R90).
-/

namespace Sys2Proof.Laws

/-- The word of an instruction fits its row's width. -/
def EncodeFits.Statement (i : Instr) : Prop := encode i < 2 ^ i.format.width

theorem EncodeFits.encode : EncodeFits.Statement .encode := by unfold EncodeFits.Statement; decide

theorem EncodeFits.decode : EncodeFits.Statement .decode := by unfold EncodeFits.Statement; decide

theorem EncodeFits.badmode0 (a : Bool) (b : Bool) : EncodeFits.Statement (.badmode0 a b) := BitVec.isLt _

theorem EncodeFits.badmode3 (a : Bool) (b : Bool) : EncodeFits.Statement (.badmode3 a b) := BitVec.isLt _

theorem EncodeFits.encodeNosrc (b : Bool) : EncodeFits.Statement (.encodeNosrc b) := BitVec.isLt _

theorem EncodeFits.decodeNosrc (b : Bool) : EncodeFits.Statement (.decodeNosrc b) := BitVec.isLt _

theorem EncodeFits.encodeNosnk : EncodeFits.Statement .encodeNosnk := by unfold EncodeFits.Statement; decide

theorem EncodeFits.decodeNosnk : EncodeFits.Statement .decodeNosnk := by unfold EncodeFits.Statement; decide

theorem EncodeFits.zrun (v : Byte) : EncodeFits.Statement (.zrun v) := BitVec.isLt _

theorem EncodeFits.run (c : Byte) (v : Byte) : EncodeFits.Statement (.run c v) := BitVec.isLt _

theorem EncodeFits.endRec (g : BitVec 8) : EncodeFits.Statement (.endRec g) := BitVec.isLt _

theorem EncodeFits.failRec (g : BitVec 9) : EncodeFits.Statement (.failRec g) := BitVec.isLt _

theorem EncodeFits.halfRec (c : Byte) (g : BitVec 8) : EncodeFits.Statement (.halfRec c g) := BitVec.isLt _

theorem EncodeFits.breakRec (c : Byte) (g : BitVec 9) : EncodeFits.Statement (.breakRec c g) := BitVec.isLt _

theorem EncodeFits.tokData (d : Byte) : EncodeFits.Statement (.tokData d) := BitVec.isLt _

theorem EncodeFits.tokEos (g : BitVec 8) : EncodeFits.Statement (.tokEos g) := BitVec.isLt _

theorem EncodeFits.tokErr (g : BitVec 8) : EncodeFits.Statement (.tokErr g) := BitVec.isLt _

theorem EncodeFits.tokRsvd (g : BitVec 8) : EncodeFits.Statement (.tokRsvd g) := BitVec.isLt _

theorem EncodeFits.wrespOk : EncodeFits.Statement .wrespOk := by unfold EncodeFits.Statement; decide

theorem EncodeFits.wrespFail : EncodeFits.Statement .wrespFail := by unfold EncodeFits.Statement; decide

theorem EncodeFits.warnZeroCount : EncodeFits.Statement .warnZeroCount := by unfold EncodeFits.Statement; decide

theorem EncodeFits.warnTruncated : EncodeFits.Statement .warnTruncated := by unfold EncodeFits.Statement; decide

theorem EncodeFits.status (b : Bool) (d : Bool) (o : OpOutcome) : EncodeFits.Statement (.status b d o) := BitVec.isLt _

end Sys2Proof.Laws
end

