-- ==== Sys2Proof/Laws/Reference.lean ====
section
/-!
SUPPORT. First facts about runs, the framing functions and the reference functions: lengths, `rep` as
`List.replicate`, what `runlen` measures, and that `encode`'s fuel does not matter.
-/

namespace Sys2Proof.Machine

theorem rep_eq_replicate (v : Byte) (n : Nat) : rep v n = List.replicate n v := by
  induction n with
  | zero => rfl
  | succ n ih => simp [rep, List.replicate_succ, ih]

@[simp] theorem rep_length (v : Byte) (n : Nat) : (rep v n).length = n := by
  simp [rep_eq_replicate]

theorem rep_add (v : Byte) (m n : Nat) : rep v (m + n) = rep v m ++ rep v n := by
  rw [rep_eq_replicate, rep_eq_replicate, rep_eq_replicate, List.replicate_append_replicate]

/-- Copies of a byte in front of a stream are counted first. -/
theorem runlen_rep_append (v : Byte) (n : Nat) (T : Stream) :
    runlen v (rep v n ++ T) = n + runlen v T := by
  induction n with
  | zero => simp [rep]
  | succ n ih => simp [rep, runlen, ih]; omega

theorem runlen_le_length (v : Byte) (T : Stream) : runlen v T ≤ T.length := by
  induction T with
  | nil => simp [runlen]
  | cons t T ih => simp only [runlen, List.length_cons]; split_ifs <;> omega

/-- A prefix no longer than the run consists of copies. -/
theorem take_eq_rep (v : Byte) (T : Stream) (n : Nat) (h : n ≤ runlen v T) :
    T.take n = rep v n := by
  induction T generalizing n with
  | nil => simp [runlen] at h; simp [h, rep]
  | cons t T ih =>
    cases n with
    | zero => rfl
    | succ n =>
      simp only [runlen] at h
      split_ifs at h with ht
      · simp [rep, ht, ih n (by omega)]
      · omega

/-- The byte after a run, if there is one, differs. -/
theorem head_drop_runlen (v : Byte) (T : Stream) : (T.drop (runlen v T)).head? ≠ some v := by
  induction T with
  | nil => simp [runlen]
  | cons t T ih =>
    simp only [runlen]
    split_ifs with ht
    · rw [Nat.add_comm]; simpa using ih
    · simpa using ht

/-- Fuel for every byte is enough, and more changes nothing. -/
theorem encodeFuel_eq (k : Nat) (S : Stream) (h : S.length ≤ k) :
    encodeFuel k S = encodeStream S := by
  suffices H : ∀ (k j : Nat) (S : Stream), S.length ≤ k → S.length ≤ j →
      encodeFuel k S = encodeFuel j S from H k _ S h (Nat.le_refl _)
  intro k
  induction k with
  | zero =>
    intro j S hk _
    have : S = [] := List.length_eq_zero_iff.1 (by omega)
    subst this
    cases j <;> rfl
  | succ k ih =>
    intro j S hk hj
    cases S with
    | nil => cases j <;> rfl
    | cons v T =>
      cases j with
      | zero => simp at hj
      | succ j =>
        simp only [List.length_cons] at hk hj
        simp only [encodeFuel]
        rw [ih j] <;> (simp only [List.length_drop]; omega)

/-- The bounds check as two inequalities (R121). -/
theorem lenOk_iff (c : Nat) : lenOk c = true ↔ 1 ≤ c ∧ c ≤ 255 := by
  unfold lenOk Config.minRun Config.maxRun
  rw [Bool.and_eq_true, decide_eq_true_iff, decide_eq_true_iff]

/-- A count the bounds checker passes survives the narrowing (R95, R125). -/
theorem narrow8_toNat (c : Count) (h : lenOk c.toNat = true) : (narrow8 c).toNat = c.toNat := by
  have : c.toNat ≤ 255 := ((lenOk_iff _).1 h).2
  simp [narrow8, BitVec.extractLsb'_toNat]
  omega

/-- `unpack` inverts `pack` on the counts the encoder writes (R130). -/
theorem unpack_pack (c : Count) (v : Byte) (h : lenOk c.toNat = true) :
    unpack (narrow8 c) v = (c.toNat, v) := by
  simp [unpack, narrow8_toNat c h]

/-- On its domain `inc` adds one without a carry (R123). -/
theorem inc_toNat (c : Count) (h1 : 1 ≤ c.toNat) (h2 : c.toNat ≤ 254) :
    (inc c).toNat = c.toNat + 1 := by
  simp [inc, h1, h2, BitVec.toNat_add]
  omega

/-- On its domain `dec` subtracts one without a borrow (R124). -/
theorem dec_toNat (c : Byte) (h : c ≠ 0#8) : (dec c).toNat = c.toNat - 1 := by
  have hc : c.toNat ≠ 0 := fun h0 => h (BitVec.eq_of_toNat_eq (by simpa using h0))
  have := c.isLt
  simp [dec, h, BitVec.toNat_sub]
  omega

/-- A run of any machine peels off its first step, whatever that step answers. -/
theorem run_succ (M : Host.Core) (n : Nat) (s : M.State) :
    (∀ t, M.step s = .next t → M.run (n + 1) s = M.run n t) ∧
    (∀ r, M.step s = .fault r → M.run (n + 1) s = .fault r) ∧
    (∀ r, M.step s = .refused r → M.run (n + 1) s = .refused r) := by
  refine ⟨fun t h => ?_, fun r h => ?_, fun r h => ?_⟩ <;> simp only [Host.Core.run, h]

/-- Runs of any machine compose. -/
theorem run_add (M : Host.Core) (m n : Nat) (s t : M.State) (h : M.run m s = .next t) :
    M.run (m + n) s = M.run n t := by
  induction m generalizing s with
  | zero =>
    simp only [Host.Core.run, Host.Outcome.next.injEq] at h
    rw [h, Nat.zero_add]
  | succ m ih =>
    rw [Nat.succ_add]
    cases hst : M.step s with
    | next u =>
      rw [(run_succ M m s).1 u hst] at h
      rw [(run_succ M _ s).1 u hst, ih u h]
    | fault r => rw [(run_succ M m s).2.1 r hst] at h; cases h
    | refused r => rw [(run_succ M m s).2.2 r hst] at h; cases h

/-- A run of the core peels off its first step. -/
theorem runSteps_succ {s t : State} (n : Nat) (h : step s = .next t) :
    runSteps (n + 1) s = runSteps n t :=
  (run_succ Sys2Proof.core n s).1 t h

/-- Runs of the core compose. -/
theorem runSteps_add {s t : State} (m n : Nat) (h : runSteps m s = .next t) :
    runSteps (m + n) s = runSteps n t :=
  run_add Sys2Proof.core m n s t h

/-- An act of the environment touches no register, no output and no warning. -/
theorem env_keeps (e : EnvEvent) (s : State) :
    (s.env e).phase = s.phase ∧ (s.env e).ctlOutcome = s.ctlOutcome ∧
    (s.env e).srcSeen = s.srcSeen ∧ (s.env e).out = s.out ∧ (s.env e).warnLog = s.warnLog ∧
    (s.env e).encVal = s.encVal ∧ (s.env e).encCnt = s.encCnt ∧
    (s.env e).encPendV = s.encPendV ∧ (s.env e).encPendB = s.encPendB ∧
    (s.env e).encFin = s.encFin ∧ (s.env e).decCnt = s.decCnt ∧ (s.env e).decVal = s.decVal := by
  cases e <;> exact ⟨rfl, rfl, rfl, rfl, rfl, rfl, rfl, rfl, rfl, rfl, rfl, rfl⟩

end Sys2Proof.Machine
end

