-- ==== Sys2Proof/Tests/Slice0.lean ====
section
/-!
SUPPORT. The model's own tests: terms the well-formedness check refuses, words of the table decoded, one
step of each instruction against the vectors of spec/95_test_vectors.md, and for every statement of
Certificates/Slice0 with hypotheses a state that meets them.
-/

namespace Sys2Proof.Tests

open Sys2Proof Sys2Proof.Machine

/-! ### States the tests start from -/

/-- The encoder in its state `e`, everything else as after reset. -/
def encoderAt (e : EncSt) : State := { State.reset with ctlSt := .cEnc, encSt := e }

/-- The decoder in its state `d`, everything else as after reset. -/
def decoderAt (d : DecSt) : State := { State.reset with ctlSt := .cDec, decSt := d }

/-- An operation has ended with the outcome `o`. -/
def doneWith (o : OpOutcome) : State := { State.reset with ctlSt := .cDone, ctlOutcome := o }

/-- A run of `n` bytes `0x41` in progress. -/
def scanning (n : Count) : State := { encoderAt .eScan with encVal := 0x41#8, encCnt := n }

/-- A record with count `c` whose value byte is still to come. -/
def afterCount (c : Byte) : State := { decoderAt .dVal with decCnt := c }

/-- `n` copies of `0x41` still to be written. -/
def expanding (n : Byte) : State := { decoderAt .dExp with decCnt := n, decVal := 0x41#8 }

/-- The next state, if there is one. -/
def after (o : Host.Outcome State Fault Refusal) : Option State :=
  match o with
  | .next s => some s
  | .fault _ => none
  | .refused _ => none

/-- A decoded instruction, if the decoder gives one. -/
def okOf (r : Except Reject Instr) : Option Instr :=
  match r with
  | .ok i => some i
  | .error _ => none

/-- The name of a rejection, if the decoder rejects. -/
def rejectOf (r : Except Reject Instr) : Option Reject :=
  match r with
  | .ok _ => none
  | .error e => some e

/-! ### Well-formedness refuses -/

/-- R96: a `PAIR` with count zero is a `ZRUN`, never a `RUN`. -/
theorem test_wf_run_zero_count : (Instr.run 0x00#8 0x41#8).wf = false := by decide

/-- R34: `busy` and `done` are never both 1. -/
theorem test_wf_status_busy_and_done : (Instr.status true true .ok).wf = false := by decide

theorem test_wf_accepts : (Instr.run 0x01#8 0x41#8).wf = true ∧ (Instr.zrun 0x41#8).wf = true ∧
    (Instr.status true false .noOutcome).wf = true ∧ (Instr.status false true .ok).wf = true := by
  decide

/-! ### Words of the table (spec/opcode_table.json; spec/95_test_vectors.md sections 5 and 6) -/

theorem test_decode_cmd_modes :
    okOf (decode .cmd 0b0111) = some .encode ∧ okOf (decode .cmd 0b1011) = some .decode ∧
    okOf (decode .cmd 0b0000) = some (.badmode0 false false) ∧
    okOf (decode .cmd 0b0010) = some (.badmode0 true false) ∧
    okOf (decode .cmd 0b1101) = some (.badmode3 false true) := by decide

theorem test_decode_cmd_closed :
    okOf (decode .cmd 0b0100) = some (.encodeNosrc false) ∧
    okOf (decode .cmd 0b0101) = some (.encodeNosrc true) ∧
    okOf (decode .cmd 0b1000) = some (.decodeNosrc false) ∧
    okOf (decode .cmd 0b0110) = some .encodeNosnk ∧
    okOf (decode .cmd 0b1010) = some .decodeNosnk := by decide

theorem test_decode_pair :
    okOf (decode .pair 0x0041) = some (.zrun 0x41#8) ∧
    okOf (decode .pair 0x0000) = some (.zrun 0x00#8) ∧
    okOf (decode .pair 0x0100) = some (.run 0x01#8 0x00#8) ∧
    okOf (decode .pair 0x0A41) = some (.run 0x0A#8 0x41#8) ∧
    okOf (decode .pair 0x807F) = some (.run 0x80#8 0x7F#8) ∧
    okOf (decode .pair 0xFFFF) = some (.run 0xFF#8 0xFF#8) := by decide

theorem test_decode_boundary :
    okOf (decode .boundary 0b01_00000000) = some (.endRec 0x00#8) ∧
    okOf (decode .boundary 0b01_10101010) = some (.endRec 0xAA#8) ∧
    okOf (decode .boundary 0b10_00000000) = some (.failRec 0x000#9) ∧
    okOf (decode .boundary 0b11_01000001) = some (.failRec 0x141#9) := by decide

theorem test_decode_half_and_break :
    okOf (decode .halfTok 0b00000101_0100000000) = some (.halfRec 0x05#8 0x00#8) ∧
    okOf (decode .halfTok 0b00000101_1000000000) = some (.breakRec 0x05#8 0x000#9) ∧
    rejectOf (decode .halfTok 0b00000101_0001000001) = some .notTruncated := by decide

theorem test_decode_tok :
    okOf (decode .tok 0x041) = some (.tokData 0x41#8) ∧
    okOf (decode .tok 0x100) = some (.tokEos 0x00#8) ∧
    okOf (decode .tok 0x1AA) = some (.tokEos 0xAA#8) ∧
    okOf (decode .tok 0x200) = some (.tokErr 0x00#8) ∧
    okOf (decode .tok 0x341) = some (.tokRsvd 0x41#8) := by decide

theorem test_decode_answers_and_warnings :
    okOf (decode .wresp 0) = some .wrespOk ∧ okOf (decode .wresp 1) = some .wrespFail ∧
    okOf (decode .warn 0b01) = some .warnZeroCount ∧
    okOf (decode .warn 0b10) = some .warnTruncated ∧
    rejectOf (decode .warn 0b00) = some .unusedWarnCode ∧
    rejectOf (decode .warn 0b11) = some .unusedWarnCode := by decide

theorem test_decode_status :
    okOf (decode .status 0b00_0000) = some (.status false false .noOutcome) ∧
    okOf (decode .status 0b10_0000) = some (.status true false .noOutcome) ∧
    okOf (decode .status 0b01_1111) = some (.status false true .faultBounds) ∧
    rejectOf (decode .status 0b01_1001) = some .unusedOutcomeCode ∧
    rejectOf (decode .status 0b11_0001) = some .busyAndDone := by decide

theorem test_decode_too_wide : rejectOf (decode .cmd 16) = some .tooWide := by decide

/-- The encoder's words, against the table's `encoding` column. -/
theorem test_encode_words :
    encode (.run 0x0A#8 0x41#8) = 0x0A41 ∧ encode (.tokErr 0x00#8) = 0x200 ∧
    encode (.breakRec 0x05#8 0x000#9) = 0b00000101_1000000000 ∧
    encode (.status false true .errMode) = 0b01_1000 ∧ encode (.badmode3 true false) = 0b1110 := by
  decide

theorem test_table_words :
    decodeTableWord 4 0x7 = some .encode ∧ decodeTableWord 10 0x341 = some (.tokRsvd 0x41#8) ∧
    decodeTableWord 16 0x0041 = some (.zrun 0x41#8) ∧
    decodeTableWord 16 0x0100 = some (.endRec 0x00#8) ∧
    decodeTableWord 16 0x0341 = some (.tokRsvd 0x41#8) ∧
    decodeTableWord 18 0x1500 = some (.halfRec 0x05#8 0x00#8) ∧
    decodeTableWord 8 0b01_1000 = some (.status false true .errMode) := by decide

/-! ### The status word at the end of an operation (spec/95_test_vectors.md section 6) -/

theorem test_status_words :
    statusWord State.reset = 0b00_0000#6 ∧ statusWord (doneWith .ok) = 0b01_0001#6 ∧
    statusWord (doneWith .okEmpty) = 0b01_0010#6 ∧ statusWord (doneWith .endTruncated) = 0b01_0011#6 ∧
    statusWord (doneWith .errRead) = 0b01_0100#6 ∧ statusWord (doneWith .errWrite) = 0b01_0101#6 ∧
    statusWord (doneWith .faultBounds) = 0b01_1111#6 ∧ statusWord (scanning 1#9) = 0b10_0000#6 := by
  decide

/-! ### The framing functions (spec/95_test_vectors.md section 2) -/

theorem test_framing :
    lenOk 0 = false ∧ lenOk 1 = true ∧ lenOk 255 = true ∧ lenOk 256 = false ∧ lenOk 511 = false ∧
    atCap 254#9 = false ∧ atCap 255#9 = true ∧ inc 254#9 = 255#9 ∧ dec 1#8 = 0#8 ∧
    narrow8 255#9 = 0xFF#8 ∧ pack 10#9 0x41#8 = [0x0A#8, 0x41#8] ∧
    runlen 0x41#8 [0x41#8, 0x41#8, 0x42#8, 0x41#8] = 2 := by decide

/-- The source's examples S6, S7 and S8 on the reference functions. -/
theorem test_reference :
    encodeStream [0x41#8, 0x42#8, 0x41#8] = [0x01#8, 0x41#8, 0x01#8, 0x42#8, 0x01#8, 0x41#8] ∧
    decodeStream [0x00#8, 0x41#8, 0x02#8, 0x42#8] = [0x42#8, 0x42#8] ∧
    zeroCounts [0x00#8, 0x41#8, 0x02#8, 0x42#8] = 1 ∧
    decodeStream [0x02#8, 0x41#8, 0x05#8] = [0x41#8, 0x41#8] := by decide

/-! ### One step of each instruction (spec/95_test_vectors.md sections 3, 4, 6 and 8) -/

theorem test_encode : (after (exec .encode (doneWith .errWrite))).map (fun t => (t.phase, statusWord t)) =
    some (some .eFirst, 0b10_0000#6) := by decide

theorem test_decode : (after (exec .decode State.reset)).map (fun t => (t.phase, statusWord t)) =
    some (some .dCnt, 0b10_0000#6) := by decide

/-- P5: the pending slot left full by an earlier operation is cleared. -/
theorem test_encode_clears_slot :
    (after (exec .encode { doneWith .errWrite with encPendV := true, encPendB := 0x42#8 })).map
      (fun t => (t.encPendV, t.encPendB)) = some (false, 0x42#8) := by decide

theorem test_badmode0 : (after (exec (.badmode0 true true) State.reset)).map statusWord =
    some 0b01_1000#6 := by decide

theorem test_badmode3 : (after (exec (.badmode3 false true) State.reset)).map statusWord =
    some 0b01_1000#6 := by decide

theorem test_encodeNosrc : (after (exec (.encodeNosrc false) State.reset)).map statusWord =
    some 0b01_0110#6 := by decide

theorem test_decodeNosrc : (after (exec (.decodeNosrc true) State.reset)).map statusWord =
    some 0b01_0110#6 := by decide

theorem test_encodeNosnk : (after (exec .encodeNosnk (doneWith .ok))).map statusWord =
    some 0b01_0111#6 := by decide

theorem test_decodeNosnk : (after (exec .decodeNosnk State.reset)).map statusWord =
    some 0b01_0111#6 := by decide

/-- P1 step 1. -/
theorem test_tokData_first : (after (exec (.tokData 0x61#8) (encoderAt .eFirst))).map
    (fun t => (t.phase, t.encVal, t.encCnt)) = some (some .eScan, 0x61#8, 1#9) := by decide

/-- P1 step 4: a different byte goes to the slot. -/
theorem test_tokData_differs : (after (exec (.tokData 0x62#8) (scanning 3#9))).map
    (fun t => (t.phase, t.encPendV, t.encPendB, t.encVal, t.encCnt)) =
    some (some .eEmitC, true, 0x62#8, 0x41#8, 3#9) := by decide

/-- R144: the empty input; R148: the input ends after a full run. -/
theorem test_tokEos : (after (exec (.tokEos 0x00#8) (encoderAt .eFirst))).map statusWord =
      some 0b01_0010#6 ∧
    (after (exec (.tokEos 0xAA#8) (encoderAt .eHead))).map statusWord = some 0b01_0001#6 := by decide

/-- P4 step 3. -/
theorem test_tokErr : (after (exec (.tokErr 0x00#8) (scanning 2#9))).map
    (fun t => (t.phase, t.encFin)) = some (some .eEmitC, .fErr) := by decide

theorem test_tokRsvd : (after (exec (.tokRsvd 0x41#8) (encoderAt .eFirst))).map statusWord =
    some 0b01_0100#6 := by decide

/-- P2 step 2. -/
theorem test_zrun : (after (exec (.zrun 0x41#8) (afterCount 0x00#8))).map
    (fun t => (t.phase, t.decVal, t.warnLog, warnCode t)) =
    some (some .dCnt, 0x41#8, [.zeroCount], some 0b01#2) := by decide

/-- P2 step 4. -/
theorem test_run : (after (exec (.run 0x02#8 0x42#8) (afterCount 0x02#8))).map
    (fun t => (t.phase, t.decCnt, t.decVal, t.warnLog)) =
    some (some .dExp, 0x02#8, 0x42#8, []) := by decide

theorem test_endRec : (after (exec (.endRec 0x00#8) (decoderAt .dCnt))).map statusWord =
    some 0b01_0001#6 := by decide

theorem test_failRec : (after (exec (.failRec 0x000#9) (decoderAt .dCnt))).map statusWord =
    some 0b01_0100#6 := by decide

/-- Section 4.1: a lone trailing `0x00` warns nothing. -/
theorem test_halfRec : (after (exec (.halfRec 0x00#8 0x00#8) (afterCount 0x00#8))).map
    (fun t => (statusWord t, t.warnLog)) = some (0b01_0001#6, []) := by decide

/-- P2b step 8. -/
theorem test_breakRec : (after (exec (.breakRec 0x05#8 0x000#9) (afterCount 0x05#8))).map
    (fun t => (statusWord t, t.warnLog, warnCode t)) =
    some (0b01_0011#6, [.truncated], some 0b10#2) := by decide

/-- P3 step 257 and P4 step 5. -/
theorem test_wrespOk_encoder :
    (after (exec .wrespOk { scanning 255#9 with encSt := .eEmitC })).map (fun t => (t.phase, t.out)) =
      some (some .eEmitV, [0xFF#8]) ∧
    (after (exec .wrespOk { scanning 2#9 with encSt := .eEmitV, encFin := .fErr })).map
      (fun t => (statusWord t, t.out)) = some (0b01_0100#6, [0x41#8]) := by decide

/-- P2 steps 5 and 6. -/
theorem test_wrespOk_decoder :
    (after (exec .wrespOk (expanding 2#8))).map (fun t => (t.phase, t.decCnt, t.out)) =
      some (some .dExp, 1#8, [0x41#8]) ∧
    (after (exec .wrespOk (expanding 1#8))).map (fun t => (t.phase, t.decCnt, t.out)) =
      some (some .dCnt, 0#8, [0x41#8]) := by decide

/-- P7 step 4: the refused byte is not counted off. -/
theorem test_wrespFail : (after (exec .wrespFail (expanding 2#8))).map
    (fun t => (statusWord t, t.decCnt, t.out)) = some (0b01_0101#6, 2#8, []) := by decide

theorem test_warnZeroCount : (after (exec .warnZeroCount (afterCount 0x00#8))).map
    (fun t => (t.phase, t.warnLog)) = some (some .dVal, [.zeroCount]) := by decide

theorem test_warnTruncated : (after (exec .warnTruncated (afterCount 0x05#8))).map
    (fun t => (t.phase, t.warnLog)) = some (some .dVal, [.truncated]) := by decide

theorem test_status : after (exec (.status true false .noOutcome) (scanning 3#9)) =
    some (scanning 3#9) := by decide

/-! ### The step -/

/-- P1 step 7, P3 step 256, and section 3.4: the steps without an access. -/
theorem test_internal_steps :
    (after (step { encoderAt .eHead with encPendV := true, encPendB := 0x62#8 })).map
      (fun t => (t.phase, t.encVal, t.encCnt, t.encPendV)) = some (some .eScan, 0x62#8, 1#9, false) ∧
    (after (step (scanning 255#9))).map State.phase = some (some .eEmitC) ∧
    (after (step { scanning 256#9 with encSt := .eEmitC })).map statusWord = some 0b01_1111#6 := by
  decide

/-- Section 7: `rst` in the middle of an operation; `O` stays. -/
theorem test_rst : (after (step { scanning 3#9 with out := [0x03#8], rst := true })).map
    (fun t => (t.phase, t.out, statusWord t)) = some (some .idle, [0x03#8], 0b00_0000#6) := by decide

/-- The words of the table run as the first step after reset. -/
theorem test_fetch_encode : (after (step (State.reset.withFetchWord 4 0x7))).map State.phase =
    some (some .eFirst) := by decide

theorem test_fetch_run : (after (step (State.reset.withFetchWord 16 0x0A41))).map
    (fun t => (t.phase, t.decCnt, t.decVal)) = some (some .dExp, 0x0A#8, 0x41#8) := by decide

theorem test_fetch_half : (after (step (State.reset.withFetchWord 18 0x1500))).map statusWord =
    some 0b01_0001#6 := by decide

theorem test_fetch_answer : (after (step (State.reset.withFetchWord 1 1))).map statusWord =
    some 0b01_0101#6 := by decide

/-! ### Witnesses: states that meet the hypotheses of the statements -/

/-- A command with the streams of the source's example S3. -/
def launchS3 : Launch :=
  { cmd := 0b0111#4, src := sourceWords [0x41#8] .eos, snk := oks 2 }

theorem witness_RstResetsFromAnyState :
    ({ scanning 3#9 with rst := true } : State).rst = true ∧ State.reset.phase = some .idle ∧
    State.reset.rst = false ∧ State.reset.host = [] := by decide

theorem witness_EncodeCommandStartsTheEncoder : Ready State.reset ∧ Ready (doneWith .errWrite) := by
  decide

theorem witness_DecodeCommandStartsTheDecoder : Ready State.reset ∧ Ready (doneWith .ok) := by decide

theorem witness_InvalidModeEndsWithErrMode : Ready State.reset ∧ Ready (doneWith .errMode) := by decide

theorem witness_ClosedInputEndsWithErrOpenIn : Ready State.reset ∧ Ready (doneWith .errOpenIn) := by
  decide

theorem witness_ClosedOutputEndsWithErrOpenOut : Ready State.reset ∧ Ready (doneWith .errOpenOut) := by
  decide

theorem witness_StartChecksModeThenInputThenOutput :
    Ready State.reset ∧ (0b0011#4).extractLsb' 2 2 = 0b00#2 ∧ (0b1111#4).extractLsb' 2 2 = 0b11#2 ∧
    (0b0100#4).getLsbD 1 = false ∧ (0b1010#4).getLsbD 0 = false ∧
    (0b0111#4).extractLsb' 2 2 = 0b01#2 := by decide

/-- The last write of an encode operation, a further command standing on the port. -/
def lastWrite : State :=
  { scanning 1#9 with encSt := .eEmitV, encFin := .fEos, snkAns := [0#1], host := [launchS3] }

theorem witness_CommandIsHeldOffWhileBusy :
    (scanning 1#9).phase ≠ none ∧ busy (scanning 1#9) = true ∧
    ∃ t, lastWrite.rst = false ∧ busy lastWrite = true ∧ lastWrite.host = [launchS3] ∧
      step lastWrite = .next t ∧ t.phase = some .done := by
  refine ⟨by decide, by decide, _, rfl, by decide, rfl, rfl, by decide⟩

theorem witness_CommandFromDoneActsAsFromIdle : (doneWith .errWrite).phase = some .done := by decide

theorem witness_FirstTokenOpensARunOrEnds : (encoderAt .eFirst).phase = some .eFirst := by decide

theorem witness_HeadTokenOpensARunOrEnds :
    (encoderAt .eHead).phase = some .eHead ∧ (encoderAt .eHead).encPendV = false := by decide

theorem witness_EqualByteIsCountedWithoutWrap :
    (scanning 1#9).phase = some .eScan ∧ 1 ≤ (scanning 1#9).encCnt.toNat ∧
    (scanning 254#9).phase = some .eScan ∧ (scanning 254#9).encCnt.toNat ≤ 254 := by decide

theorem witness_DifferentByteOrEndClosesTheRun :
    (scanning 254#9).phase = some .eScan ∧ atCap (scanning 254#9).encCnt = false ∧
    0x42#8 ≠ (scanning 254#9).encVal := by decide

theorem witness_CountByteIsLatchedWhateverItsValue : (decoderAt .dCnt).phase = some .dCnt := by decide

theorem witness_ZeroCountRecordIsSkippedWithOneWarning :
    (afterCount 0#8).phase = some .dVal ∧ (afterCount 0#8).decCnt = 0#8 := by decide

theorem witness_RunRecordOpensTheExpansion :
    (afterCount 1#8).phase = some .dVal ∧ (afterCount 1#8).decCnt = 1#8 ∧ 1#8 ≠ 0#8 ∧
    (afterCount 255#8).decCnt = 255#8 := by decide

theorem witness_RunRecordWritesExactlyCountCopies :
    ({ afterCount 2#8 with snkAns := [0#1, 0#1, 1#1] } : State).phase = some .dVal ∧
    2#8 ≠ 0#8 ∧ ({ afterCount 2#8 with snkAns := [0#1, 0#1, 1#1] } : State).rst = false ∧
    [0#1, 0#1, 1#1] = oks (2#8).toNat ++ [1#1] := by decide

theorem witness_TerminalAtABoundaryEndsTheDecoder : (decoderAt .dCnt).phase = some .dCnt := by decide

theorem witness_LoneTrailingByteIsDroppedSilently :
    (afterCount 0#8).phase = some .dVal ∧ (afterCount 5#8).decCnt = 5#8 := by decide

theorem witness_BrokenRecordWarnsAndEndsTruncated :
    (afterCount 0#8).phase = some .dVal ∧ (afterCount 5#8).decCnt = 5#8 := by decide

theorem witness_RecordFormsActAsTheirLastToken :
    (decoderAt .dCnt).phase = some .dCnt ∧ (afterCount 0#8).phase = some .dVal := by decide

theorem witness_CountByteIsWrittenOrTheOperationFails :
    ({ scanning 1#9 with encSt := .eEmitC } : State).phase = some .eEmitC ∧
    lenOk (scanning 1#9).encCnt.toNat = true ∧ lenOk (scanning 255#9).encCnt.toNat = true := by decide

theorem witness_ValueByteIsWrittenAndTheRunEnds :
    (encoderAt .eEmitV).phase = some .eEmitV ∧ (encoderAt .eEmitV).encFin = .fNone ∧
    ({ encoderAt .eEmitV with encFin := .fEos } : State).phase = some .eEmitV ∧
    ({ encoderAt .eEmitV with encFin := .fErr } : State).phase = some .eEmitV := by decide

theorem witness_ExpandedByteIsCountedOff :
    (expanding 1#8).phase = some .dExp ∧ (expanding 1#8).decCnt = 1#8 ∧
    (expanding 255#8).phase = some .dExp ∧ (expanding 255#8).decCnt ≠ 1#8 := by decide

theorem witness_StepsWithoutAnAccess :
    ({ encoderAt .eHead with encPendV := true } : State).phase = some .eHead ∧
    (scanning 255#9).phase = some .eScan ∧ (scanning 255#9).encCnt = 255#9 ∧
    ({ scanning 0#9 with encSt := .eEmitC } : State).phase = some .eEmitC ∧
    lenOk (scanning 0#9).encCnt.toNat = false ∧ lenOk (scanning 256#9).encCnt.toNat = false ∧
    (scanning 256#9).rst = false := by decide

theorem witness_WarningWordLogsOnceAndPulses : (afterCount 0#8).phase = some .dVal := by decide

theorem witness_StatusWordReportsControl :
    State.reset.phase ≠ none ∧ (scanning 1#9).phase ≠ none ∧ (doneWith .ok).phase ≠ none := by decide

theorem witness_WordsAreIgnoredWithoutATransfer :
    srcReady (scanning 255#9) = false ∧ (scanning 255#9).phase ≠ none ∧
    snkValid (scanning 1#9) = false ∧ Ready State.reset ∧ (scanning 1#9).phase ≠ some .dCnt ∧
    (afterCount 5#8).decCnt ≠ 6#8 ∧ (afterCount 1#8).decCnt ≠ 0#8 ∧
    (decoderAt .dCnt).phase ≠ some .dVal := by decide

theorem witness_UnreachableCombinationsAreStuck :
    ({ State.reset with encSt := .eScan } : State).phase = none ∧
    ({ State.reset with encSt := .eScan } : State).rst = false := by decide

theorem witness_EveryInstructionKeepsTheTenPhases :
    (scanning 1#9).phase ≠ none ∧ (expanding 1#8).phase ≠ none := by decide

theorem witness_StepRunsTheDecodedWord :
    (Ready { State.reset with host := [launchS3] } ∧
      okOf (decode .cmd launchS3.cmd.toNat) = some .encode) ∧
    (srcReady { scanning 1#9 with srcRest := [0x041#10] } = true ∧
      okOf (decode .tok (0x041#10).toNat) = some (.tokData 0x41#8)) ∧
    (({ decoderAt .dCnt with srcRest := [0x100#10] } : State).phase = some .dCnt ∧
      okOf (decode .boundary (0x100#10).toNat) = some (.endRec 0#8)) ∧
    (({ afterCount 2#8 with srcRest := [0x041#10] } : State).phase = some .dVal ∧
      TokWord.kind 0x041#10 = 0b00#2 ∧
      okOf (decode .pair (2#8 ++ TokWord.dataBits 0x041#10).toNat) = some (.run 2#8 0x41#8)) ∧
    (TokWord.kind 0x100#10 ≠ 0b00#2 ∧
      okOf (decode .halfTok (2#8 ++ 0x100#10).toNat) = some (.halfRec 2#8 0#8)) ∧
    (snkValid { expanding 1#8 with snkAns := [1#1] } = true ∧
      okOf (decode .wresp (1#1).toNat) = some .wrespFail) := by decide

theorem witness_WaitingForAPartnerHoldsTheState :
    Ready State.reset ∧ State.reset.host = [] ∧ srcReady (scanning 1#9) = true ∧
    (scanning 1#9).srcRest = [] ∧ snkValid (expanding 1#8) = true ∧ (expanding 1#8).snkAns = [] ∧
    (expanding 1#8).rst = false := by decide

theorem witness_StepMakesAtMostOneTransfer :
    (∃ t, step { State.reset with host := [launchS3] } = .next t) ∧
    (∃ t, step { scanning 1#9 with srcRest := [0x041#10] } = .next t) ∧
    (∃ t, step { expanding 1#8 with snkAns := [0#1] } = .next t) ∧
    ∃ t, step (scanning 255#9) = .next t := ⟨⟨_, rfl⟩, ⟨_, rfl⟩, ⟨_, rfl⟩, ⟨_, rfl⟩⟩

theorem witness_WarningsAreLoggedAsTheyPulse :
    (∃ t, step { afterCount 0#8 with srcRest := [0x041#10] } = .next t ∧
      t.warnPulse = some .zeroCount) ∧
    (∃ t, step (scanning 255#9) = .next t ∧ t.warnPulse = none) ∧
    ∃ t, step { doneWith .ok with host := [launchS3], warnLog := [.zeroCount] } = .next t ∧
      t.warnLog = [] := ⟨⟨_, rfl, rfl⟩, ⟨_, rfl, rfl⟩, ⟨_, rfl, rfl⟩⟩

theorem witness_UnitsDoNotWriteEachOthersRegisters :
    (∃ t, (scanning 255#9).ctlSt = .cEnc ∧ step (scanning 255#9) = .next t) ∧
    ∃ t, (expanding 1#8).ctlSt = .cDec ∧ step { expanding 1#8 with snkAns := [0#1] } = .next t :=
  ⟨⟨_, rfl, rfl⟩, ⟨_, rfl, rfl⟩⟩

theorem witness_FinishAndStartKeepTheDataRegisters :
    (∃ t, step lastWrite = .next t ∧ t.phase = some .done) ∧
    ∃ t, Ready { doneWith .ok with host := [launchS3] } ∧
      step { doneWith .ok with host := [launchS3] } = .next t :=
  ⟨⟨_, rfl, rfl⟩, ⟨_, by decide, rfl⟩⟩

theorem witness_DecodeOfEncodeIsTheInstruction :
    (Instr.run 1#8 0#8).wf = true ∧ (Instr.run 255#8 255#8).wf = true ∧
    (Instr.status true false .faultBounds).wf = true := by decide

theorem witness_EncodeOfDecodeIsTheWord :
    okOf (decode .halfTok 0b11111111_1111111111) = some (.breakRec 0xFF#8 0x1FF#9) ∧
    okOf (decode .pair 0) = some (.zrun 0#8) := by decide

theorem witness_EveryInputWordDecodesAndUnusedWordsAreRefused :
    0x3FF < 2 ^ Format.tok.width ∧ Format.tok ≠ .warn ∧ Format.tok ≠ .status ∧
    Format.tok ≠ .halfTok ∧ TokWord.kind 0x3FF#10 ≠ 0b00#2 ∧ 9 ≤ 9 ∧ 9 ≤ 14 ∧ 14 ≤ 14 ∧
    0 ≤ 15 ∧ 15 ≤ 15 := by decide

theorem witness_EncodeSplitsAtABoundary :
    atBoundary [] 0x41#8 ∧ atBoundary [0x42#8] 0x41#8 ∧ atBoundary (rep 0x41#8 255) 0x41#8 :=
  ⟨.inl rfl, .inr (.inl (by decide)), .inr (.inr (by decide +kernel))⟩

/-- The second byte of a run of two has been counted; the end of the input stands on the port. -/
def midRun : State :=
  { scanning 2#9 with srcSeen := [.data 0x41#8, .data 0x41#8], srcRest := [0x100#10] }

theorem witness_StepKeepsTheEncoderInvariant : EncoderInv midRun ∧ ∃ t, step midRun = .next t :=
  ⟨⟨by decide, by decide, rfl, rfl, [], rfl, .inl rfl, rfl⟩, _, rfl⟩

/-- One copy of a record `[0x03, 0x41]` has been written. -/
def midRecord : State :=
  { expanding 2#8 with srcSeen := [.data 0x03#8, .data 0x41#8], out := [0x41#8], snkAns := [0#1] }

theorem witness_StepKeepsTheDecoderInvariant : DecoderInv midRecord ∧ ∃ t, step midRecord = .next t :=
  ⟨⟨[], 0x03#8, rfl, rfl, by decide, by decide, rfl, rfl⟩, _, rfl⟩

theorem witness_NothingIsReadAfterATerminal :
    SourceInv midRun ∧ srcReady midRun = true ∧ ∃ t, step midRun = .next t := by
  refine ⟨?_, by decide, _, rfl⟩
  show ∀ t ∈ midRun.srcSeen, isData t
  decide

theorem witness_StepKeepsTheStatusInvariant :
    (StatusInv lastWrite ∧ ∃ t, step lastWrite = .next t ∧ t.ctlOutcome = .ok) ∧
    ∃ t, (doneWith .errWrite).phase = some .done ∧ (doneWith .errWrite).rst = false ∧
      step (doneWith .errWrite) = .next t ∧ t.host = (doneWith .errWrite).host :=
  ⟨⟨⟨by decide, by decide⟩, _, rfl, rfl⟩, _, rfl, rfl, rfl, rfl⟩

theorem witness_ReachableStatesAreSafeAndStep :
    Reachable ((State.reset.env (.offerCommand launchS3)).env (.setRst true)) :=
  .env _ (.env _ .reset)

/-- After reset, the commands `ls` standing on the port. -/
def offered (ls : List Launch) : State := { State.reset with host := ls }

theorem witness_EncodeOperationWritesTheEncoding :
    Ready (offered [launchS3]) ∧ (offered [launchS3]).rst = false ∧
    (offered [launchS3]).host =
      [{ cmd := 0b0111#4, src := sourceWords [0x41#8] .eos,
         snk := oks (encodeStream [0x41#8]).length ++ [] }] := by decide

theorem witness_EncodeOperationStopsAtARefusedWrite :
    Ready (offered []) ∧ 0 < (encodeStream [0x41#8]).length ∧
    1 < (encodeStream [0x41#8]).length ∧
    (offered [{ cmd := 0b0111#4, src := sourceWords [0x41#8] .err, snk := [0#1, 1#1] }]).host =
      [{ cmd := 0b0111#4, src := sourceWords [0x41#8] .err, snk := oks 1 ++ 1#1 :: [] }] := by decide

theorem witness_DecodeOperationWritesTheDecoding :
    Ready (offered []) ∧ (offered []).rst = false ∧
    (offered [{ cmd := 0b1011#4, src := sourceWords [2#8, 0x41#8, 5#8] .err,
                snk := [0#1, 0#1] }]).host =
      [{ cmd := 0b1011#4, src := sourceWords [2#8, 0x41#8, 5#8] .err,
         snk := oks (decodeStream [2#8, 0x41#8, 5#8]).length ++ [] }] := by decide

theorem witness_DecodeOperationStopsAtARefusedWrite :
    Ready (offered []) ∧ (offered []).rst = false ∧ 1 < (decodeStream [3#8, 0x41#8]).length ∧
    (offered [{ cmd := 0b1011#4, src := sourceWords [3#8, 0x41#8] .eos, snk := [0#1, 1#1] }]).host =
      [{ cmd := 0b1011#4, src := sourceWords [3#8, 0x41#8] .eos, snk := oks 1 ++ 1#1 :: [] }] := by
  decide

theorem witness_RoundTripThroughTheMachine :
    Ready (offered []) ∧ (offered []).rst = false ∧
    (offered [launchS3, { cmd := 0b1011#4, src := [0x001#10, 0x041#10, 0x100#10], snk := [0#1] }]).host =
      [{ cmd := 0b0111#4, src := sourceWords [0x41#8] .eos, snk := oks (encodeStream [0x41#8]).length },
       { cmd := 0b1011#4, src := sourceWords (encodeStream [0x41#8]) .eos,
         snk := oks [0x41#8].length }] := by decide

theorem witness_NothingLeaksBetweenOperations :
    Ready (offered [launchS3]) ∧
    Ready { doneWith .errWrite with host := [launchS3], encPendV := true, encPendB := 0x42#8 } ∧
    (offered [launchS3]).rst = false ∧ (offered [launchS3]).host = [launchS3] := by decide

end Sys2Proof.Tests
end

section
/-!
SUPPORT. What a step does at each of the core's input ports, and the two statements of the scope family:
a step runs the word it takes (R10, R33), and it makes at most one transfer (R10, R64, R66, R72).
-/

namespace Sys2Proof

/-! ### Decoding the value of a word of a port -/

@[simp] theorem decode_cmd_toNat (w : CmdWord) : decode .cmd w.toNat = .ok (decodeCmd w) := by
  rw [decode_of_lt w.isLt, decodeFitting, BitVec.ofNat_toNat, BitVec.setWidth_eq]

@[simp] theorem decode_tok_toNat (w : TokWord) : decode .tok w.toNat = .ok (decodeTok w) := by
  rw [decode_of_lt w.isLt, decodeFitting, BitVec.ofNat_toNat, BitVec.setWidth_eq]

@[simp] theorem decode_boundary_toNat (w : TokWord) :
    decode .boundary w.toNat = .ok (decodeBoundary w) := by
  rw [decode_of_lt w.isLt, decodeFitting, BitVec.ofNat_toNat, BitVec.setWidth_eq]

@[simp] theorem decode_pair_toNat (w : BitVec 16) : decode .pair w.toNat = .ok (decodePair w) := by
  rw [decode_of_lt w.isLt, decodeFitting, BitVec.ofNat_toNat, BitVec.setWidth_eq]

@[simp] theorem decode_halfTok_toNat (w : BitVec 18) : decode .halfTok w.toNat = decodeHalfTok w := by
  rw [decode_of_lt w.isLt, decodeFitting, BitVec.ofNat_toNat, BitVec.setWidth_eq]

@[simp] theorem decode_wresp_toNat (w : WrespWord) : decode .wresp w.toNat = .ok (decodeWresp w) := by
  rw [decode_of_lt w.isLt, decodeFitting, BitVec.ofNat_toNat, BitVec.setWidth_eq]

/-- After a count byte a `DATA` token completes a `PAIR` word (R96). -/
theorem decodeAfterCount_of_data (c : Byte) {t : TokWord} (h : TokWord.kind t = 0b00#2) :
    decodeAfterCount c t = decodePair (c ++ TokWord.dataBits t) := if_pos h

/-- After a count byte any other token completes an 18-bit group (R92, R96). -/
theorem decodeHalfTok_append (c : Byte) {t : TokWord} (h : TokWord.kind t ≠ 0b00#2) :
    decodeHalfTok (c ++ t) = .ok (decodeAfterCount c t) := by
  obtain ⟨hc, ht⟩ := halfTok_fields c t
  simp only [decodeHalfTok, hc, ht, if_neg h]

end Sys2Proof

namespace Sys2Proof.Machine

/-! ### The step at a port that offers something -/

/-- A ready core runs the command the host offers. -/
theorem step_of_command {s : State} (hr : s.rst = false) (h : Ready s) {l : Launch}
    {ls : List Launch} (hh : s.host = l :: ls) :
    step s = exec (decodeCmd l.cmd) (attach l ls (clearPulse s)) := by
  simp [step, fetch, hr, (access_command s).2 h, hh]

@[simp] theorem readToken_clearPulse (s : State) (t : TokWord) :
    readToken (clearPulse s) t = readToken s t := rfl

/-- A core that asks for a token runs the reading of the one the source offers. -/
theorem step_of_source {s : State} (hr : s.rst = false) (h : srcReady s = true) {t : TokWord}
    {ts : List TokWord} (hh : s.srcRest = t :: ts) :
    step s = exec (readToken s t) (deliver t ts (clearPulse s)) := by
  simp [step, fetch, hr, (access_source s).2 h, hh]

/-- A core that offers a byte runs the sink's answer. -/
theorem step_of_sink {s : State} (hr : s.rst = false) (h : snkValid s = true) {a : WrespWord}
    {as : List WrespWord} (hh : s.snkAns = a :: as) :
    step s = exec (decodeWresp a) (answered as (clearPulse s)) := by
  simp [step, fetch, hr, (access_sink s).2 h, hh]

/-- The encoder reads plain tokens. -/
theorem readToken_of_enc {s : State} (h : s.ctlSt = .cEnc) (t : TokWord) :
    readToken s t = decodeTok t := by
  have hcnt : s.phase ≠ some .dCnt := by simp [phase_eq_dCnt, h]
  have hval : s.phase ≠ some .dVal := by simp [phase_eq_dVal, h]
  unfold readToken
  split <;> simp_all

theorem readToken_of_dCnt {s : State} (h : s.phase = some .dCnt) (t : TokWord) :
    readToken s t = decodeBoundary t := by simp [readToken, h]

theorem readToken_of_dVal {s : State} (h : s.phase = some .dVal) (t : TokWord) :
    readToken s t = decodeAfterCount s.decCnt t := by simp [readToken, h]

theorem srcReady_of_dCnt {s : State} (h : s.phase = some .dCnt) : srcReady s = true := by
  simp [srcReady, h]

theorem srcReady_of_dVal {s : State} (h : s.phase = some .dVal) : srcReady s = true := by
  simp [srcReady, h]

/-- Settles O33: each port's `step_of_…` lemma, with the reading of the port's word and phase equal to
the decoding of the word's number. -/
theorem stepRunsTheDecodedWord : Obligations.StepRunsTheDecodedWord := by
  intro s i hr
  refine ⟨fun l ls h hh hi => ?_, fun t ts hc h hh hi => ?_, fun t ts h hh hi => ?_,
    fun t ts h hh hk hi => ?_, fun t ts h hh hk hi => ?_, fun a as h hh hi => ?_⟩
  · rw [decode_cmd_toNat] at hi
    rw [step_of_command hr h hh, Except.ok.inj hi]
  · rw [decode_tok_toNat] at hi
    rw [step_of_source hr h hh, readToken_of_enc hc, Except.ok.inj hi]
  · rw [decode_boundary_toNat] at hi
    rw [step_of_source hr (srcReady_of_dCnt h) hh, readToken_of_dCnt h, Except.ok.inj hi]
  · rw [decode_pair_toNat] at hi
    rw [step_of_source hr (srcReady_of_dVal h) hh, readToken_of_dVal h,
      decodeAfterCount_of_data _ hk, Except.ok.inj hi]
  · rw [decode_halfTok_toNat, decodeHalfTok_append _ hk] at hi
    rw [step_of_source hr (srcReady_of_dVal h) hh, readToken_of_dVal h, Except.ok.inj hi]
  · rw [decode_wresp_toNat] at hi
    rw [step_of_sink hr h hh, Except.ok.inj hi]

/-! ### What a transfer does to the ports and streams -/

/-- An accepted command empties `O` and the consumed tokens and leaves the ports as they stand (R200). -/
theorem exec_decodeCmd_ports {w : CmdWord} {s t : State} (hr : cmdReady s = true)
    (h : exec (decodeCmd w) s = .next t) :
    t.host = s.host ∧ t.srcRest = s.srcRest ∧ t.snkAns = s.snkAns ∧ t.out = [] ∧
      t.srcSeen = [] := by
  rw [exec_decodeCmd] at h
  obtain ⟨-, rfl⟩ := onCommand_phase h
  rw [if_pos hr]
  split_ifs <;> simp

/-- A byte stands on the sink port whenever `snk_valid` is 1 (R36). -/
theorem snkData_of_snkValid {s : State} (h : snkValid s = true) : ∃ b, snkData s = some b := by
  unfold snkData
  rw [if_pos h]
  unfold snkValid at h
  split at h <;> simp_all

/-- An answer to an offered byte appends it to `O` exactly when the answer is `OK` (R64, R100), and
leaves the other ports and the consumed tokens as they are. -/
theorem answer_ports {a : WrespWord} {b : Byte} {s t : State} (h : snkValid s = true)
    (hb : snkData s = some b) (ht : t = if a = 0#1 then answerOk s else answerFail s) :
    t.host = s.host ∧ t.srcRest = s.srcRest ∧ t.srcSeen = s.srcSeen ∧ t.snkAns = s.snkAns ∧
      t.out = if a = 0#1 then s.out ++ [b] else s.out := by
  subst ht
  by_cases ha : a = 0#1
  · obtain ⟨hhost, hrest, hseen, hans, -⟩ := answerOk_ports s
    simp [ha, hhost, hrest, hseen, hans, answerOk_out, hb]
  · simp [ha, answerFail_eq, h]

/-- Settles O35: along `step_cases`, each transfer's case by what that transfer does to the ports, the
hold and the step without an access by their keeping the ports. -/
theorem stepMakesAtMostOneTransfer : Obligations.StepMakesAtMostOneTransfer := by
  intro s t hr hstep
  rcases step_cases hstep with ⟨hrst, -⟩ | ⟨-, -, rfl⟩ | ⟨-, -, hrdy, l, ls, hh, hx⟩ |
    ⟨-, hrdy, w, ws, hh, rfl⟩ | ⟨-, hval, a, as, hh, ht⟩ | ⟨-, -, rfl⟩
  · -- reset, excluded by `rst` low
    simp [hr] at hrst
  · -- a hold
    exact .inr (.inr (.inr ⟨rfl, rfl, rfl, rfl, rfl⟩))
  · -- a command
    obtain ⟨hhost, hrest, hans, hout, hseen⟩ :=
      exec_decodeCmd_ports (s := attach l ls (clearPulse s)) hrdy hx
    exact .inl ⟨l, by rw [hh, hhost, attach_host], hrest, hans, hout, hseen, hrdy⟩
  · -- a token
    obtain ⟨hhost, hrest, hseen, hans, hout, -⟩ :=
      takeToken_ports (TokWord.token w) (deliver w ws (clearPulse s))
    exact .inr (.inl ⟨w, by rw [hh, hrest, deliver_srcRest], hseen, hhost, hans, hout, hrdy⟩)
  · -- an answer
    obtain ⟨b, hb⟩ := snkData_of_snkValid hval
    obtain ⟨hhost, hrest, hseen, hans, hout⟩ :=
      answer_ports (s := answered as (clearPulse s)) hval hb ht
    exact .inr (.inr (.inl ⟨a, b, by rw [hh, hans, answered_snkAns], hb, hout, hhost, hrest, hseen⟩))
  · -- a step without an access
    obtain ⟨hhost, hrest, hseen, hans, hout, -⟩ := internalStep_ports (clearPulse s)
    exact .inr (.inr (.inr ⟨hhost, hrest, hseen, hans, hout⟩))

end Sys2Proof.Machine
end

section
/-!
SUPPORT. The functions `encode` and `decode` on concatenations: the recursion of `encode` and its
induction, the split at a boundary (R162 (f)), and what one more record adds (R140, R160, R170, R182).
-/

namespace Sys2Proof.Machine

/-! ### The encoding, run by run -/

@[simp] theorem encodeStream_nil : encodeStream [] = [] := rfl

/-- One record, then the encoding of what its run leaves (R140). -/
theorem encodeStream_cons (v : Byte) (T : Stream) :
    encodeStream (v :: T) = BitVec.ofNat 8 (min 255 (1 + runlen v T)) :: v ::
      encodeStream (T.drop (min 255 (1 + runlen v T) - 1)) := by
  rw [← encodeFuel_eq T.length (T.drop _) (by simp)]
  rfl

/-- Induction along the recursion of `encode`: a record at a time. -/
theorem encodeStream_induction {motive : Stream → Prop} (nil : motive [])
    (cons : ∀ v T, motive (T.drop (min 255 (1 + runlen v T) - 1)) → motive (v :: T)) :
    ∀ S, motive S
  | [] => nil
  | v :: T => cons v T (encodeStream_induction nil cons _)
termination_by S => S.length
decreasing_by simp only [List.length_drop, List.length_cons]; omega

theorem encodeStream_even (S : Stream) : (encodeStream S).length % 2 = 0 := by
  induction S using encodeStream_induction with
  | nil => rfl
  | cons v T ih => simp only [encodeStream_cons, List.length_cons]; omega

/-- A stream of complete records is framed apart from what follows it (R69). -/
theorem records_append {C : Stream} (h : C.length % 2 = 0) (D : Stream) :
    records (C ++ D) = records C ++ records D := by
  induction C using records.induct with
  | case1 => rfl
  | case2 b => simp at h
  | case3 c v C ih =>
    simp only [List.length_cons] at h
    simp [records, ih (by omega)]

/-- The last record of an encoding with one more record is that record. -/
theorem lastCount_encodeStream_append (S : Stream) (c v : Byte) :
    lastCount (encodeStream S ++ [c, v]) = some c := by
  simp [lastCount, records_append (encodeStream_even S), records]

/-- A leading record does not change which record is last, if an encoding follows it. -/
theorem lastCount_cons_encodeStream (c v : Byte) {S : Stream} (h : S ≠ []) :
    lastCount (c :: v :: encodeStream S) = lastCount (encodeStream S) := by
  obtain ⟨u, T, rfl⟩ := List.exists_cons_of_ne_nil h
  simp [lastCount, records, encodeStream_cons]

/-- A run that fills a stream goes on in what follows; any other run ends where it did. -/
theorem runlen_append (u : Byte) (A B : Stream) :
    runlen u (A ++ B) = if runlen u A = A.length then A.length + runlen u B else runlen u A := by
  induction A with
  | nil => simp [runlen]
  | cons a A ih =>
    by_cases ha : a = u
    · simp only [List.cons_append, runlen, if_pos ha, ih, List.length_cons]
      split_ifs <;> omega
    · simp [runlen, ha]

@[simp] theorem runlen_rep (v : Byte) (n : Nat) : runlen v (rep v n) = n := by
  simpa [runlen] using runlen_rep_append v n []

/-- A run of a legal length is one record (R140, R162). -/
theorem encodeStream_rep (v : Byte) {n : Nat} (h1 : 1 ≤ n) (h2 : n ≤ 255) :
    encodeStream (rep v n) = [BitVec.ofNat 8 n, v] := by
  obtain ⟨m, rfl⟩ : ∃ m, n = m + 1 := ⟨n - 1, by omega⟩
  have hmin : min 255 (1 + m) = m + 1 := by omega
  have hdrop : (rep v m).drop m = [] := List.drop_eq_nil_of_le (by simp)
  simp [rep, encodeStream_cons, hmin, hdrop]

/-- At a boundary the first run of a stream is as long as it is with the rest behind it (R160). -/
theorem min_runlen_append_of_atBoundary {u v : Byte} {S : Stream} (h : atBoundary (u :: S) v)
    (T : Stream) : min 255 (1 + runlen u (S ++ v :: T)) = min 255 (1 + runlen u S) := by
  rw [runlen_append]
  split_ifs with hfull
  · have hS : S = rep u S.length := by simpa using take_eq_rep u S S.length hfull.ge
    by_cases huv : v = u
    · have hlong : 255 ≤ 1 + S.length := by
        by_contra hshort
        have hrep : u :: S = rep u (S.length + 1) := by rw [rep, ← hS]
        rcases h with hnil | hlast | hcount
        · exact List.cons_ne_nil _ _ hnil
        · rw [hrep, rep_eq_replicate, List.getLast?_replicate, if_neg (by omega), huv] at hlast
          exact hlast rfl
        · rw [hrep, encodeStream_rep u (by omega) (by omega)] at hcount
          have hbyte : BitVec.ofNat 8 (S.length + 1) = 255#8 := Option.some.inj hcount
          have := congrArg BitVec.toNat hbyte
          simp only [BitVec.toNat_ofNat] at this
          omega
      omega
    · simp [runlen, huv, hfull]
  · rfl

/-- A boundary of a stream is one of the stream without its first record. -/
theorem atBoundary_drop {u v : Byte} {S : Stream} (h : atBoundary (u :: S) v) :
    atBoundary (S.drop (min 255 (1 + runlen u S) - 1)) v := by
  by_cases hnil : S.drop (min 255 (1 + runlen u S) - 1) = []
  · exact .inl hnil
  · rcases h with h | hlast | hcount
    · exact absurd h (List.cons_ne_nil _ _)
    · refine .inr (.inl ?_)
      have hlt : min 255 (1 + runlen u S) - 1 < S.length := by simpa using hnil
      rw [List.getLast?_drop, if_neg (by omega)]
      rwa [List.getLast?_cons_of_ne_nil (List.ne_nil_of_length_pos (by omega))] at hlast
    · rw [encodeStream_cons, lastCount_cons_encodeStream _ _ hnil] at hcount
      exact .inr (.inr hcount)

/-- R162 (f): the encoding of a concatenation at a boundary. -/
theorem encodeStream_append_of_atBoundary {S : Stream} {v : Byte} (h : atBoundary S v) (T : Stream) :
    encodeStream (S ++ v :: T) = encodeStream S ++ encodeStream (v :: T) := by
  induction S using encodeStream_induction with
  | nil => rfl
  | cons u S ih =>
    have hle : min 255 (1 + runlen u S) - 1 ≤ S.length := by
      have := runlen_le_length u S
      omega
    rw [List.cons_append, encodeStream_cons, min_runlen_append_of_atBoundary h T,
      List.drop_append_of_le_length hle, ih (atBoundary_drop h), encodeStream_cons u S]
    rfl

/-- At a boundary a run adds its record to the encoding (R160). -/
theorem encodeStream_append_rep {S : Stream} {v : Byte} (h : atBoundary S v) {n : Nat} (h1 : 1 ≤ n)
    (h2 : n ≤ 255) : encodeStream (S ++ rep v n) = encodeStream S ++ [BitVec.ofNat 8 n, v] := by
  rw [← encodeStream_rep v h1 h2]
  obtain ⟨m, rfl⟩ : ∃ m, n = m + 1 := ⟨n - 1, by omega⟩
  exact encodeStream_append_of_atBoundary h _

/-! ### The decoding, record by record -/

/-- Behind complete records decoding starts afresh (R170). -/
theorem decodeStream_append {P : Stream} (h : P.length % 2 = 0) (Q : Stream) :
    decodeStream (P ++ Q) = decodeStream P ++ decodeStream Q := by
  induction P using decodeStream.induct with
  | case1 => rfl
  | case2 b => simp at h
  | case3 c v P ih =>
    simp only [List.length_cons] at h
    simp [decodeStream, ih (by omega)]

/-- Behind complete records counting the warnings goes on (R170). -/
theorem zeroCounts_append {P : Stream} (h : P.length % 2 = 0) (Q : Stream) :
    zeroCounts (P ++ Q) = zeroCounts P + zeroCounts Q := by
  induction P using zeroCounts.induct with
  | case1 => simp [zeroCounts]
  | case2 b => simp at h
  | case3 c v P ih =>
    simp only [List.length_cons] at h
    simp [zeroCounts, ih (by omega), Nat.add_assoc]

/-- One more record is expanded (R170). -/
theorem decodeStream_append_record {P : Stream} (h : P.length % 2 = 0) (c v : Byte) :
    decodeStream (P ++ [c, v]) = decodeStream P ++ rep v c.toNat := by
  simp [decodeStream_append h, decodeStream]

/-- One more record warns exactly when its count is zero (R170). -/
theorem zeroCounts_append_record {P : Stream} (h : P.length % 2 = 0) (c v : Byte) :
    zeroCounts (P ++ [c, v]) = zeroCounts P + if c = 0#8 then 1 else 0 := by
  simp [zeroCounts_append h, zeroCounts]

end Sys2Proof.Machine
end

section
/-!
SUPPORT. What each transfer can do, said once as an inductive: an accepted command, a token, an answer,
a step without an access; when a meaning and a step answer; and the statements of the state family that
follow: the stuck combinations and the ten phases (R32), the separation of the units (R20), the data
registers (R40) and the state after reset (R38).
-/

namespace Sys2Proof.Machine

/-! ### When a core is ready and when it is busy -/

/-- `busy` and `cmd_ready` divide the values of `CTL.st` between them (R34, R36). -/
theorem cmdReady_eq_not_busy (s : State) : cmdReady s = !busy s := by
  unfold cmdReady busy
  cases s.ctlSt <;> rfl

/-- In a ready core both units are idle (R32). -/
theorem units_idle_of_ready {s : State} (h : Ready s) : s.encSt = .eIdle ∧ s.decSt = .dIdle := by
  rcases h with h | h
  · exact ((phase_eq_idle s).1 h).2
  · exact ((phase_eq_done s).1 h).2

theorem cmdReady_of_ready {s : State} (h : Ready s) : cmdReady s = true :=
  (cmdReady_of_phase (by rcases h with h | h <;> simp [h])).2 h

/-- Every access but a command is made by a busy core (R200, R211). -/
theorem busy_of_access {s : State} {a : Access} (h : access s = some a) (ha : a ≠ .command) :
    busy s = true := by
  by_contra hb
  have hp : s.phase ≠ none := fun hn => by simp [(access_none s).2 hn] at h
  have hready : Ready s := (cmdReady_of_phase hp).1 (by simp [cmdReady_eq_not_busy, hb])
  rw [(access_command s).2 hready] at h
  exact ha (Option.some.inj h).symm

theorem busy_of_srcReady {s : State} (h : srcReady s = true) : busy s = true :=
  busy_of_access ((access_source s).2 h) (by decide)

theorem busy_of_snkValid {s : State} (h : snkValid s = true) : busy s = true :=
  busy_of_access ((access_sink s).2 h) (by decide)

/-- In an encode operation the decoder is idle (R32). -/
theorem decSt_of_enc {s : State} (h : s.phase ≠ none) (hc : s.ctlSt = .cEnc) : s.decSt = .dIdle := by
  rcases phase_of_enc h hc with h | h | h | h | h
  · exact ((phase_eq_eFirst s).1 h).2.2
  · exact ((phase_eq_eHead s).1 h).2.2
  · exact ((phase_eq_eScan s).1 h).2.2
  · exact ((phase_eq_eEmitC s).1 h).2.2
  · exact ((phase_eq_eEmitV s).1 h).2.2

/-- In a decode operation the encoder is idle (R32). -/
theorem encSt_of_dec {s : State} (h : s.phase ≠ none) (hc : s.ctlSt = .cDec) : s.encSt = .eIdle := by
  rcases phase_of_dec h hc with h | h | h
  · exact ((phase_eq_dCnt s).1 h).2.1
  · exact ((phase_eq_dVal s).1 h).2.1
  · exact ((phase_eq_dExp s).1 h).2.1

/-! ### What an accepted command can do (R200 to R205) -/

/-- The three ways a `START` goes on. -/
inductive CommandEffect (s : State) : State → Prop
  | refuses (o : OpOutcome) (ho : OutcomeClass.of o = .fatal) : CommandEffect s (refuseStart o s)
  | startsEncoder : CommandEffect s (startEncode s)
  | startsDecoder : CommandEffect s (startDecode s)

theorem commandEffect_of_exec {w : CmdWord} {s t : State} (hr : cmdReady s = true)
    (h : exec (decodeCmd w) s = .next t) : CommandEffect s t := by
  rw [exec_decodeCmd] at h
  obtain ⟨-, rfl⟩ := onCommand_phase h
  rw [if_pos hr]
  split_ifs
  · exact .refuses _ rfl
  · exact .refuses _ rfl
  · exact .refuses _ rfl
  · exact .startsEncoder
  · exact .startsDecoder

/-! ### What a token can do where the core reads one (R142, R172) -/

/-- The step rules that call `SrcRead()`, with their guards. -/
inductive TokenEffect (t : Token) (s : State) : State → Prop
  | ends (o : OpOutcome) (ho : o = .ok ∨ o = .okEmpty ∨ o = .errRead) : TokenEffect t s (finish o s)
  | opensRun (b : Byte) (ht : t = .data b)
      (hp : s.phase = some .eFirst ∨ s.phase = some .eHead ∧ s.encPendV = false) :
      TokenEffect t s (openRun b s)
  | countsByte (ht : t = .data s.encVal) (hp : s.phase = some .eScan) (hc : atCap s.encCnt = false) :
      TokenEffect t s { s with encCnt := inc s.encCnt }
  | parksByte (b : Byte) (ht : t = .data b) (hb : b ≠ s.encVal) (hp : s.phase = some .eScan)
      (hc : atCap s.encCnt = false) :
      TokenEffect t s (closeRun { s with encPendV := true, encPendB := b })
  | notesEnd (e : InputEnd) (he : t = .eos ∧ e = .fEos ∨ t = .err ∧ e = .fErr)
      (hp : s.phase = some .eScan) (hc : atCap s.encCnt = false) :
      TokenEffect t s (closeRun { s with encFin := e })
  | latchesCount (b : Byte) (ht : t = .data b) (hp : s.phase = some .dCnt) :
      TokenEffect t s { s with decCnt := b, decSt := .dVal }
  | skipsRecord (b : Byte) (ht : t = .data b) (hp : s.phase = some .dVal) (hz : s.decCnt = 0#8) :
      TokenEffect t s { raiseWarning .zeroCount s with decVal := b, decSt := .dCnt }
  | opensExpansion (b : Byte) (ht : t = .data b) (hp : s.phase = some .dVal) (hz : s.decCnt ≠ 0#8) :
      TokenEffect t s { s with decVal := b, decSt := .dExp }
  | breaksRecord (ht : t = .err) (hp : s.phase = some .dVal) :
      TokenEffect t s (finish .endTruncated (raiseWarning .truncated s))

/-- Below the cap a token is counted, parked or noted (R151 to R154). -/
theorem tokenEffect_scan {s : State} (hp : s.phase = some .eScan) (hc : atCap s.encCnt = false)
    (t : Token) : TokenEffect t s (scanToken t s) := by
  cases t with
  | data b =>
    by_cases hb : b = s.encVal
    · simpa [scanToken, byteEq, hb] using TokenEffect.countsByte (t := .data b) (by rw [hb]) hp hc
    · simpa [scanToken, byteEq, hb] using TokenEffect.parksByte b rfl hb hp hc
  | eos => exact .notesEnd .fEos (.inl ⟨rfl, rfl⟩) hp hc
  | err => exact .notesEnd .fErr (.inr ⟨rfl, rfl⟩) hp hc

/-- After a count byte a token completes a record or cuts it short (R176 to R179). -/
theorem tokenEffect_value {s : State} (hp : s.phase = some .dVal) (t : Token) :
    TokenEffect t s (valueToken t s) := by
  cases t with
  | data b =>
    by_cases hz : s.decCnt = 0#8
    · simpa [valueToken, isZero, hz] using TokenEffect.skipsRecord b rfl hp hz
    · simpa [valueToken, isZero, hz] using TokenEffect.opensExpansion b rfl hp hz
  | eos => exact .ends .ok (.inl rfl)
  | err => exact .breaksRecord rfl hp

theorem takeToken_effect {s : State} (h : srcReady s = true) (t : Token) :
    TokenEffect t s (takeToken t s) := by
  cases hp : s.phase with
  | none => simp [srcReady, hp] at h
  | some p =>
    cases p
    case eFirst =>
      simp only [takeToken, hp]
      cases t with
      | data b => exact .opensRun b rfl (.inl hp)
      | eos => exact .ends _ (.inr (.inl rfl))
      | err => exact .ends _ (.inr (.inr rfl))
    case eHead =>
      have hv : s.encPendV = false := by simpa [srcReady, hp] using h
      simp only [takeToken, hp, hv, Bool.false_eq_true, if_false]
      cases t with
      | data b => exact .opensRun b rfl (.inr ⟨hp, hv⟩)
      | eos => exact .ends _ (.inl rfl)
      | err => exact .ends _ (.inr (.inr rfl))
    case eScan =>
      have hc : atCap s.encCnt = false := by simpa [srcReady, hp] using h
      simp only [takeToken, hp, hc, Bool.false_eq_true, if_false]
      exact tokenEffect_scan hp hc t
    case dCnt =>
      simp only [takeToken, hp]
      cases t with
      | data b => exact .latchesCount b rfl hp
      | eos => exact .ends _ (.inl rfl)
      | err => exact .ends _ (.inr (.inr rfl))
    case dVal =>
      simp only [takeToken, hp]
      exact tokenEffect_value hp t
    all_goals simp [srcReady, hp] at h

/-! ### What the sink's answer can do where the core offers a byte (R155 to R159, R180, R181) -/

/-- The step rules that call `SnkWrite`, with their guards. -/
inductive AnswerEffect (s : State) : State → Prop
  | fails : AnswerEffect s (finish .errWrite s)
  | writesCount (hp : s.phase = some .eEmitC) :
      AnswerEffect s { acknowledge (narrow8 s.encCnt) s with encSt := .eEmitV }
  | endsInput (o : OpOutcome) (ho : o = .ok ∨ o = .errRead) (hp : s.phase = some .eEmitV) :
      AnswerEffect s (finish o (acknowledge s.encVal s))
  | endsRun (hp : s.phase = some .eEmitV) (hf : s.encFin = .fNone) :
      AnswerEffect s { acknowledge s.encVal s with encSt := .eHead }
  | writesCopy (hp : s.phase = some .dExp) : AnswerEffect s (countOff (acknowledge s.decVal s))

/-- The end of a run by what `ENC.fin` recorded (R158). -/
theorem answerEffect_afterPair {s : State} (hp : s.phase = some .eEmitV) :
    AnswerEffect s (afterPair (acknowledge s.encVal s)) := by
  unfold afterPair
  split
  · exact .endsInput _ (.inl rfl) hp
  · exact .endsInput _ (.inr rfl) hp
  · next hf => exact .endsRun hp hf

theorem answerOk_effect {s : State} (h : snkValid s = true) : AnswerEffect s (answerOk s) := by
  cases hp : s.phase with
  | none => simp [snkValid, hp] at h
  | some p =>
    cases p
    case eEmitC =>
      have hc : lenOk s.encCnt.toNat = true := by simpa [snkValid, hp] using h
      simp only [answerOk, hp, hc, if_true]
      exact .writesCount hp
    case eEmitV =>
      simp only [answerOk, hp]
      exact answerEffect_afterPair hp
    case dExp =>
      simp only [answerOk, hp]
      exact .writesCopy hp
    all_goals simp [snkValid, hp] at h

theorem answer_effect {s t : State} (h : snkValid s = true) (a : WrespWord)
    (ht : t = if a = 0#1 then answerOk s else answerFail s) : AnswerEffect s t := by
  subst ht
  split_ifs
  · exact answerOk_effect h
  · rw [answerFail_eq, if_pos h]
    exact .fails

/-! ### What a step without an access can do (R146, R150, R157) -/

/-- The step rules without an access, with their guards. -/
inductive InternalEffect (s : State) : State → Prop
  | takesPending (hp : s.phase = some .eHead) (hv : s.encPendV = true) :
      InternalEffect s { openRun s.encPendB s with encPendV := false }
  | clamps (hp : s.phase = some .eScan) (hc : atCap s.encCnt = true) : InternalEffect s (closeRun s)
  | refusesCount (hp : s.phase = some .eEmitC) (hc : lenOk s.encCnt.toNat = false) :
      InternalEffect s (finish .faultBounds s)

theorem internalStep_effect {s : State} (h : access s = some .internal) :
    InternalEffect s (internalStep s) := by
  unfold access at h
  unfold internalStep
  cases hp : s.phase with
  | none => simp [hp] at h
  | some p =>
    cases p
    case eHead =>
      have hv : s.encPendV = true := by simpa [hp] using h
      simpa only [hv, if_true] using InternalEffect.takesPending hp hv
    case eScan =>
      have hc : atCap s.encCnt = true := by simpa [hp] using h
      simpa only [hc, if_true] using InternalEffect.clamps hp hc
    case eEmitC =>
      have hc : lenOk s.encCnt.toNat = false := by simpa [hp] using h
      simpa only [hc, Bool.false_eq_true, if_false] using InternalEffect.refusesCount hp hc
    all_goals simp [hp] at h

/-! ### What a step can do -/

/-- The six kinds of steps: `step_cases` with each transfer by its effect. -/
inductive StepEffect (s : State) : State → Prop
  | reset (hr : s.rst = true) : StepEffect s (takeReset s)
  | hold (hr : s.rst = false) (hp : s.phase ≠ none) : StepEffect s (clearPulse s)
  | command (hr : s.rst = false) (hready : Ready s) (l : Launch) (ls : List Launch)
      (hh : s.host = l :: ls) {t : State} (h : CommandEffect (attach l ls (clearPulse s)) t) :
      StepEffect s t
  | token (hr : s.rst = false) (hrdy : srcReady s = true) (w : TokWord) (ws : List TokWord)
      (hh : s.srcRest = w :: ws) {t : State}
      (h : TokenEffect (TokWord.token w) (deliver w ws (clearPulse s)) t) : StepEffect s t
  | answer (hr : s.rst = false) (hval : snkValid s = true) (a : WrespWord) (as : List WrespWord)
      (hh : s.snkAns = a :: as) {t : State} (h : AnswerEffect (answered as (clearPulse s)) t) :
      StepEffect s t
  | internal (hr : s.rst = false) (ha : access s = some .internal) {t : State}
      (h : InternalEffect (clearPulse s) t) : StepEffect s t

theorem step_effect {s t : State} (h : step s = .next t) : StepEffect s t := by
  rcases step_cases h with ⟨hr, rfl⟩ | ⟨hr, hp, rfl⟩ | ⟨hr, hp, hrdy, l, ls, hh, hx⟩ |
    ⟨hr, hrdy, w, ws, hh, rfl⟩ | ⟨hr, hval, a, as, hh, ht⟩ | ⟨hr, ha, rfl⟩
  · exact .reset hr
  · exact .hold hr hp
  · exact .command hr ((cmdReady_of_phase hp).1 hrdy) l ls hh
      (commandEffect_of_exec (s := attach l ls (clearPulse s)) hrdy hx)
  · exact .token hr hrdy w ws hh (takeToken_effect (s := deliver w ws (clearPulse s)) hrdy _)
  · exact .answer hr hval a as hh (answer_effect (s := answered as (clearPulse s)) hval a ht)
  · exact .internal hr ha (internalStep_effect (s := clearPulse s) ha)

/-! ### When a meaning and a step answer (R32) -/

/-- `t` is in one of the ten phases whenever `s` is. -/
def KeepsLegal (s t : State) : Prop := s.phase ≠ none → t.phase ≠ none

/-- A command's meaning keeps the ten phases, if it does so in a ready core. -/
theorem onCommand_keepsLegal {f : State → State} {s : State} (hf : Ready s → (f s).phase ≠ none) :
    KeepsLegal s (if cmdReady s then f s else s) := by
  intro h
  split_ifs with hr
  · exact hf ((cmdReady_of_phase h).1 hr)
  · exact h

theorem startEncode_phase {s : State} (h : Ready s) : (startEncode s).phase = some .eFirst := by
  simp [phase_eq_eFirst, (units_idle_of_ready h).2]

theorem startDecode_phase {s : State} (h : Ready s) : (startDecode s).phase = some .dCnt := by
  simp [phase_eq_dCnt, (units_idle_of_ready h).1]

/-- A token taken under any further condition keeps the ten phases. -/
theorem ite_takeToken_keepsLegal (c : Prop) [Decidable c] (t : Token) (s : State) :
    KeepsLegal s (if c then takeToken t s else s) := by
  intro h
  split_ifs
  · exact takeToken_phase h t
  · exact h

theorem answerFail_keepsLegal (s : State) : KeepsLegal s (answerFail s) := by
  intro h
  rw [answerFail_eq]
  split_ifs
  · simp
  · exact h

theorem onWarning_keepsLegal (k : Warning) (s : State) :
    KeepsLegal s (if s.phase = some .dVal then raiseWarning k s else s) := by
  intro h
  split_ifs <;> exact h

/-- Every meaning is an `inPhase` of a result that keeps the ten phases. -/
theorem exec_eq_inPhase (i : Instr) (s : State) :
    ∃ t, exec i s = inPhase s t ∧ KeepsLegal s t := by
  cases i with
  | encode => exact ⟨_, rfl, onCommand_keepsLegal fun h => by simp [startEncode_phase h]⟩
  | decode => exact ⟨_, rfl, onCommand_keepsLegal fun h => by simp [startDecode_phase h]⟩
  | badmode0 | badmode3 | encodeNosrc | decodeNosrc | encodeNosnk | decodeNosnk =>
    exact ⟨_, rfl, onCommand_keepsLegal fun _ => by simp⟩
  | zrun | run | halfRec | breakRec | endRec | failRec =>
    exact ⟨_, rfl, ite_takeToken_keepsLegal _ _ s⟩
  | tokData | tokEos | tokErr | tokRsvd => exact ⟨_, rfl, fun h => takeToken_phase h _⟩
  | wrespOk => exact ⟨_, rfl, answerOk_phase⟩
  | wrespFail => exact ⟨_, rfl, answerFail_keepsLegal s⟩
  | warnZeroCount | warnTruncated => exact ⟨_, rfl, onWarning_keepsLegal _ s⟩
  | status => exact ⟨_, rfl, id⟩

/-- In the ten phases a meaning answers a state in the ten phases. -/
theorem exec_answers {s : State} (h : s.phase ≠ none) (i : Instr) :
    ∃ t, exec i s = .next t ∧ t.phase ≠ none := by
  obtain ⟨t, hx, hk⟩ := exec_eq_inPhase i s
  exact ⟨t, by rw [hx, (inPhase_next s t t).2 ⟨h, rfl⟩], hk h⟩

/-- Taking a word from its port moves no sequencer. -/
theorem fetch_word_phase {s t : State} {i : Instr} (h : fetch s = .word i t) : t.phase = s.phase := by
  unfold fetch at h
  split at h <;> (try split at h) <;> cases h <;> rfl

theorem fetch_stuck_iff (s : State) : fetch s = .stuck ↔ s.phase = none := by
  rw [← access_none]
  unfold fetch
  split <;> (try split) <;> simp_all

/-- Outside the ten phases a step is stuck while `rst` is low (R32). -/
theorem step_stuck {s : State} (hr : s.rst = false) (h : s.phase = none) :
    step s = .fault .noStepRule := by
  simp [step, hr, (fetch_stuck_iff (clearPulse s)).2 h]

/-- In the ten phases a step answers a state in the ten phases (R32). -/
theorem step_answers {s : State} (h : s.phase ≠ none) : ∃ t, step s = .next t ∧ t.phase ≠ none := by
  unfold step
  split_ifs with hr
  · exact ⟨_, rfl, Option.some_ne_none Phase.idle⟩
  · split
    · next i u hf => exact exec_answers (by simpa [fetch_word_phase hf] using h) i
    · exact ⟨_, rfl, internalStep_phase h⟩
    · next hf => exact absurd ((fetch_stuck_iff _).1 hf) h

/-- Settles O31: `step_stuck`, and every meaning is an `inPhase`. -/
theorem unreachableCombinationsAreStuck : Obligations.UnreachableCombinationsAreStuck := by
  intro s h
  refine ⟨fun hr => step_stuck hr h, fun i => ?_⟩
  obtain ⟨t, hx, -⟩ := exec_eq_inPhase i s
  rw [hx, inPhase_stuck h]

/-- Settles O32: every meaning is an `inPhase` of a result that keeps the ten phases. -/
theorem everyInstructionKeepsTheTenPhases : Obligations.EveryInstructionKeepsTheTenPhases :=
  fun i _ h => exec_answers h i

/-! ### The separation of the units (R20) -/

/-- The decoder's registers (R27 to R29) are the same in both states. -/
def SameDecoder (s t : State) : Prop :=
  t.decSt = s.decSt ∧ t.decCnt = s.decCnt ∧ t.decVal = s.decVal

/-- The encoder's registers (R21 to R26) are the same in both states. -/
def SameEncoder (s t : State) : Prop :=
  t.encSt = s.encSt ∧ t.encVal = s.encVal ∧ t.encCnt = s.encCnt ∧ t.encPendV = s.encPendV ∧
  t.encPendB = s.encPendB ∧ t.encFin = s.encFin

theorem TokenEffect.sameDecoder {t : Token} {s u : State} (h : TokenEffect t s u)
    (hc : s.ctlSt = .cEnc) (hd : s.decSt = .dIdle) : SameDecoder s u := by
  cases h with
  | ends => exact ⟨hd.symm, rfl, rfl⟩
  | opensRun | countsByte | parksByte | notesEnd => exact ⟨rfl, rfl, rfl⟩
  | latchesCount _ _ hp => simp [phase_eq_dCnt, hc] at hp
  | skipsRecord _ _ hp | opensExpansion _ _ hp | breaksRecord _ hp => simp [phase_eq_dVal, hc] at hp

theorem AnswerEffect.sameDecoder {s u : State} (h : AnswerEffect s u)
    (hc : s.ctlSt = .cEnc) (hd : s.decSt = .dIdle) : SameDecoder s u := by
  cases h with
  | fails | endsInput => exact ⟨hd.symm, rfl, rfl⟩
  | writesCount | endsRun => exact ⟨rfl, rfl, rfl⟩
  | writesCopy hp => simp [phase_eq_dExp, hc] at hp

theorem InternalEffect.sameDecoder {s u : State} (h : InternalEffect s u) (hd : s.decSt = .dIdle) :
    SameDecoder s u := by
  cases h with
  | takesPending | clamps => exact ⟨rfl, rfl, rfl⟩
  | refusesCount => exact ⟨hd.symm, rfl, rfl⟩

theorem TokenEffect.sameEncoder {t : Token} {s u : State} (h : TokenEffect t s u)
    (hc : s.ctlSt = .cDec) (he : s.encSt = .eIdle) : SameEncoder s u := by
  cases h with
  | ends | breaksRecord => exact ⟨he.symm, rfl, rfl, rfl, rfl, rfl⟩
  | latchesCount | skipsRecord | opensExpansion => exact ⟨rfl, rfl, rfl, rfl, rfl, rfl⟩
  | opensRun _ _ hp => simp [phase_eq_eFirst, phase_eq_eHead, hc] at hp
  | countsByte _ hp | parksByte _ _ _ hp | notesEnd _ _ hp => simp [phase_eq_eScan, hc] at hp

theorem AnswerEffect.sameEncoder {s u : State} (h : AnswerEffect s u)
    (hc : s.ctlSt = .cDec) (he : s.encSt = .eIdle) : SameEncoder s u := by
  cases h with
  | fails => exact ⟨he.symm, rfl, rfl, rfl, rfl, rfl⟩
  | writesCopy => exact ⟨rfl, rfl, rfl, rfl, rfl, rfl⟩
  | writesCount hp => simp [phase_eq_eEmitC, hc] at hp
  | endsInput _ _ hp | endsRun hp => simp [phase_eq_eEmitV, hc] at hp

/-- The steps without an access are the encoder's (R77). -/
theorem InternalEffect.ctlSt_eq {s u : State} (h : InternalEffect s u) : s.ctlSt = .cEnc := by
  cases h with
  | takesPending hp => exact ((phase_eq_eHead s).1 hp).1
  | clamps hp => exact ((phase_eq_eScan s).1 hp).1
  | refusesCount hp => exact ((phase_eq_eEmitC s).1 hp).1

/-- In an encode operation no step writes a register of the decoder (R20). -/
theorem step_sameDecoder {s t : State} (hr : s.rst = false) (h : step s = .next t)
    (hc : s.ctlSt = .cEnc) : SameDecoder s t := by
  have hp : s.phase ≠ none := fun hn => by simp [step_stuck hr hn] at h
  have hd : s.decSt = .dIdle := decSt_of_enc hp hc
  cases step_effect h with
  | reset hrst => simp [hr] at hrst
  | hold => exact ⟨rfl, rfl, rfl⟩
  | command _ hready => simpa [cmdReady, hc] using cmdReady_of_ready hready
  | token _ _ w ws _ heff => exact heff.sameDecoder hc hd
  | answer _ _ a as _ heff => exact heff.sameDecoder hc hd
  | internal _ _ heff => exact heff.sameDecoder hd

/-- In a decode operation no step writes a register of the encoder (R20). -/
theorem step_sameEncoder {s t : State} (hr : s.rst = false) (h : step s = .next t)
    (hc : s.ctlSt = .cDec) : SameEncoder s t := by
  have hp : s.phase ≠ none := fun hn => by simp [step_stuck hr hn] at h
  have he : s.encSt = .eIdle := encSt_of_dec hp hc
  cases step_effect h with
  | reset hrst => simp [hr] at hrst
  | hold => exact ⟨rfl, rfl, rfl, rfl, rfl, rfl⟩
  | command _ hready => simpa [cmdReady, hc] using cmdReady_of_ready hready
  | token _ _ w ws _ heff => exact heff.sameEncoder hc he
  | answer _ _ a as _ heff => exact heff.sameEncoder hc he
  | internal _ _ heff => simpa [hc] using heff.ctlSt_eq

/-- Settles O37: each unit's steps by the effects of its transfers. -/
theorem unitsDoNotWriteEachOthersRegisters : Obligations.UnitsDoNotWriteEachOthersRegisters :=
  fun _ _ hr h => ⟨step_sameDecoder hr h, step_sameEncoder hr h⟩

/-! ### The data registers at the ends of an operation (R40) -/

/-- The five data registers are the same in both states. -/
def SameData (s t : State) : Prop :=
  t.encVal = s.encVal ∧ t.encCnt = s.encCnt ∧ t.encPendB = s.encPendB ∧ t.decCnt = s.decCnt ∧
  t.decVal = s.decVal

theorem CommandEffect.sameData {s u : State} (h : CommandEffect s u) : SameData s u := by
  cases h <;> exact ⟨rfl, rfl, rfl, rfl, rfl⟩

/-- A token that does not end the operation leaves `CTL.st`, one that ends it the data registers. -/
theorem TokenEffect.sameCtlSt_or_sameData {t : Token} {s u : State} (h : TokenEffect t s u) :
    u.ctlSt = s.ctlSt ∨ SameData s u := by
  cases h with
  | ends | breaksRecord => exact .inr ⟨rfl, rfl, rfl, rfl, rfl⟩
  | opensRun | countsByte | parksByte | notesEnd | latchesCount | skipsRecord | opensExpansion =>
    exact .inl rfl

theorem AnswerEffect.sameCtlSt_or_sameData {s u : State} (h : AnswerEffect s u) :
    u.ctlSt = s.ctlSt ∨ SameData s u := by
  cases h with
  | fails | endsInput => exact .inr ⟨rfl, rfl, rfl, rfl, rfl⟩
  | writesCount | endsRun | writesCopy => exact .inl rfl

theorem InternalEffect.sameCtlSt_or_sameData {s u : State} (h : InternalEffect s u) :
    u.ctlSt = s.ctlSt ∨ SameData s u := by
  cases h with
  | takesPending | clamps => exact .inl rfl
  | refusesCount => exact .inr ⟨rfl, rfl, rfl, rfl, rfl⟩

/-- A step from a ready core keeps the data registers, and a busy core's step keeps them or `CTL.st`. -/
theorem step_sameData_or_busy {s t : State} (hr : s.rst = false) (h : step s = .next t) :
    SameData s t ∨ busy s = true ∧ t.ctlSt = s.ctlSt := by
  cases step_effect h with
  | reset hrst => simp [hr] at hrst
  | hold => exact .inl ⟨rfl, rfl, rfl, rfl, rfl⟩
  | command _ _ l ls _ heff => exact .inl heff.sameData
  | token _ hrdy w ws _ heff =>
    exact heff.sameCtlSt_or_sameData.symm.imp id fun hk => ⟨busy_of_srcReady hrdy, hk⟩
  | answer _ hval a as _ heff =>
    exact heff.sameCtlSt_or_sameData.symm.imp id fun hk => ⟨busy_of_snkValid hval, hk⟩
  | internal _ ha heff =>
    exact heff.sameCtlSt_or_sameData.symm.imp id fun hk => ⟨busy_of_access ha (by decide), hk⟩

/-- Settles O38: a step that changes a data register starts busy and keeps `CTL.st`, so it neither starts
in a ready core nor leads to `C_DONE`. -/
theorem finishAndStartKeepTheDataRegisters : Obligations.FinishAndStartKeepTheDataRegisters := by
  intro s t hr h hends
  rcases step_sameData_or_busy hr h with hdata | ⟨hbusy, hctl⟩
  · exact hdata
  · exfalso
    rcases hends with hdone | hready
    · simp [busy, ← hctl, ((phase_eq_done t).1 hdone).1] at hbusy
    · have hrdy := cmdReady_of_ready hready
      simp [cmdReady_eq_not_busy, hbusy] at hrdy

/-! ### The state after reset (R38) -/

theorem reset_phase : State.reset.phase = some .idle := rfl

/-- Settles O1: each register and output is read off the state after reset (R38). -/
theorem resetRegistersAndOutputs : Obligations.ResetRegistersAndOutputs :=
  ⟨rfl, rfl, rfl, rfl, rfl, rfl, by decide, rfl, rfl, rfl, rfl⟩

theorem safe_reset : Safe State.reset := ⟨by simp [reset_phase], by decide⟩

/-- Settles O49: after reset the core is idle with outcome `NONE`, where the units' invariants claim
nothing. -/
theorem resetMeetsTheInvariants : Obligations.ResetMeetsTheInvariants :=
  ⟨⟨by simp [reset_phase], by decide⟩, trivial, trivial, trivial, safe_reset⟩

end Sys2Proof.Machine
end

section
/-!
SUPPORT. The invariants of the two units along every step and every act of the environment (R160, R182),
and with them that every reachable state is safe and can step (R32, R157, R230).
-/

namespace Sys2Proof.Machine

/-! ### Where the invariants claim something, phase by phase -/

/-- Outside an encode operation R160 claims nothing. -/
theorem encoderInv_of_not_enc {s : State} (h : s.ctlSt ≠ .cEnc) : EncoderInv s := by
  unfold EncoderInv
  split <;> simp_all [phase_eq_eFirst, phase_eq_eHead, phase_eq_eScan, phase_eq_eEmitC, phase_eq_eEmitV]

/-- Outside a decode operation R182 claims nothing. -/
theorem decoderInv_of_not_dec {s : State} (h : s.ctlSt ≠ .cDec) : DecoderInv s := by
  unfold DecoderInv
  split <;> simp_all [phase_eq_dCnt, phase_eq_dVal, phase_eq_dExp]

/-- R160 in `E_HEAD`. -/
def HeadInv (s : State) : Prop :=
  s.encFin = .fNone ∧
  (s.encPendV = false → consumedBytes s ≠ [] ∧ s.out = encodeStream (consumedBytes s) ∧
    lastCount s.out = some 255#8) ∧
  (s.encPendV = true → ∃ P', consumedBytes s = P' ++ [s.encPendB] ∧ P' ≠ [] ∧
    s.out = encodeStream P' ∧ P'.getLast? ≠ some s.encPendB)

/-- R160 in `E_SCAN`. -/
def ScanInv (s : State) : Prop :=
  1 ≤ s.encCnt.toNat ∧ s.encCnt.toNat ≤ 255 ∧ s.encPendV = false ∧ s.encFin = .fNone ∧
  ∃ P', consumedBytes s = P' ++ rep s.encVal s.encCnt.toNat ∧ atBoundary P' s.encVal ∧
    s.out = encodeStream P'

/-- Why a run was closed (R160): a different byte, the end of the input, or the cap. -/
def ClosedBy (s : State) : Prop :=
  (s.encPendV = true ∧ s.encPendB ≠ s.encVal ∧ s.encFin = .fNone) ∨
  (s.encPendV = false ∧ s.encFin ≠ .fNone) ∨
  (s.encPendV = false ∧ s.encFin = .fNone ∧ s.encCnt = 255#9)

/-- R160 in `E_EMITC` and `E_EMITV`: `written` is what of the run's record is already in `O`. -/
def EmitInv (written : Stream) (s : State) : Prop :=
  1 ≤ s.encCnt.toNat ∧ s.encCnt.toNat ≤ 255 ∧ ClosedBy s ∧
  ∃ P', consumedBytes s =
      P' ++ rep s.encVal s.encCnt.toNat ++ (if s.encPendV then [s.encPendB] else []) ∧
    atBoundary P' s.encVal ∧ s.out = encodeStream P' ++ written

theorem encoderInv_eFirst {s : State} (h : s.phase = some .eFirst) :
    EncoderInv s ↔ consumedBytes s = [] ∧ s.out = [] ∧ s.encPendV = false ∧ s.encFin = .fNone := by
  simp only [EncoderInv, h]

theorem encoderInv_eHead {s : State} (h : s.phase = some .eHead) : EncoderInv s ↔ HeadInv s := by
  simp only [EncoderInv, h, HeadInv]

theorem encoderInv_eScan {s : State} (h : s.phase = some .eScan) : EncoderInv s ↔ ScanInv s := by
  simp only [EncoderInv, h, ScanInv]

theorem encoderInv_eEmitC {s : State} (h : s.phase = some .eEmitC) :
    EncoderInv s ↔ EmitInv [] s := by
  simp only [EncoderInv, h, EmitInv, ClosedBy, List.append_nil]

theorem encoderInv_eEmitV {s : State} (h : s.phase = some .eEmitV) :
    EncoderInv s ↔ EmitInv [narrow8 s.encCnt] s := by
  simp only [EncoderInv, h, EmitInv, ClosedBy]

theorem decoderInv_dCnt {s : State} (h : s.phase = some .dCnt) :
    DecoderInv s ↔ (consumedBytes s).length % 2 = 0 ∧ s.out = decodeStream (consumedBytes s) ∧
      s.warnLog = List.replicate (zeroCounts (consumedBytes s)) .zeroCount := by
  simp only [DecoderInv, h]

theorem decoderInv_dVal {s : State} (h : s.phase = some .dVal) :
    DecoderInv s ↔ ∃ P', consumedBytes s = P' ++ [s.decCnt] ∧ P'.length % 2 = 0 ∧
      s.out = decodeStream P' ∧ s.warnLog = List.replicate (zeroCounts P') .zeroCount := by
  simp only [DecoderInv, h]

theorem decoderInv_dExp {s : State} (h : s.phase = some .dExp) :
    DecoderInv s ↔ ∃ P' c, consumedBytes s = P' ++ [c, s.decVal] ∧ P'.length % 2 = 0 ∧
      1 ≤ s.decCnt.toNat ∧ s.decCnt.toNat ≤ c.toNat ∧
      s.out = decodeStream P' ++ rep s.decVal (c.toNat - s.decCnt.toNat) ∧
      s.warnLog = List.replicate (zeroCounts (consumedBytes s)) .zeroCount := by
  simp only [DecoderInv, h]

/-- A delivered byte is a consumed byte (R160, R182). -/
theorem consumedBytes_deliver_data {w : TokWord} {b : Byte} (h : TokWord.token w = .data b)
    (ws : List TokWord) (s : State) : consumedBytes (deliver w ws s) = consumedBytes s ++ [b] := by
  simp [consumedBytes, h, tokenByte]

/-- A delivered terminal is not. -/
theorem consumedBytes_deliver_end {w : TokWord} (h : tokenByte (TokWord.token w) = none)
    (ws : List TokWord) (s : State) : consumedBytes (deliver w ws s) = consumedBytes s := by
  simp [consumedBytes, h]

/-! ### The encoder's invariant (R160) -/

theorem atCap_iff (c : Count) : atCap c = true ↔ c.toNat = 255 := by simp [atCap, Config.maxRun]

theorem narrow8_eq_ofNat (c : Count) : narrow8 c = BitVec.ofNat 8 c.toNat := by
  simp [narrow8, BitVec.extractLsb']

/-- A byte read at a boundary of what is written opens a run (R143, R146, R147). -/
theorem encoderInv_openRun {r : State} {P : Stream} {b : Byte} (hc : r.ctlSt = .cEnc)
    (hd : r.decSt = .dIdle) (hP : consumedBytes r = P ++ [b]) (hb : atBoundary P b)
    (ho : r.out = encodeStream P) (hv : r.encPendV = false) (hf : r.encFin = .fNone) :
    EncoderInv (openRun b r) := by
  rw [encoderInv_eScan (by simp [phase_eq_eScan, hc, hd])]
  exact ⟨by simp, by simp, hv, hf, P, hP, hb, ho⟩

/-- A run that stops growing is closed, for one of the three reasons (R150, R152 to R154). -/
theorem encoderInv_closeRun {r : State} (hc : r.ctlSt = .cEnc) (hd : r.decSt = .dIdle)
    (h : EmitInv [] r) : EncoderInv (closeRun r) :=
  (encoderInv_eEmitC (by simp [phase_eq_eEmitC, hc, hd])).2 h

theorem CommandEffect.encoderInv {s u : State} (h : CommandEffect s u) (hr : Ready s) :
    EncoderInv u := by
  cases h with
  | refuses | startsDecoder => exact encoderInv_of_not_enc (by simp)
  | startsEncoder => exact (encoderInv_eFirst (startEncode_phase hr)).2 ⟨rfl, rfl, rfl, rfl⟩

theorem TokenEffect.encoderInv {s u : State} {w : TokWord} {ws : List TokWord}
    (h : TokenEffect (TokWord.token w) (deliver w ws s) u) (hi : EncoderInv s) : EncoderInv u := by
  cases h with
  | ends | breaksRecord => exact encoderInv_of_not_enc (by simp)
  | latchesCount _ _ hp =>
    exact encoderInv_of_not_enc (by simp [((phase_eq_dCnt s).1 hp).1])
  | skipsRecord _ _ hp | opensExpansion _ _ hp =>
    exact encoderInv_of_not_enc (by simp [((phase_eq_dVal s).1 hp).1])
  | opensRun b ht hp =>
    have hP := consumedBytes_deliver_data ht ws s
    rcases hp with hp | ⟨hp, hv⟩
    · obtain ⟨hnil, ho, hv, hf⟩ := (encoderInv_eFirst (s := s) hp).1 hi
      obtain ⟨hc, -, hd⟩ := (phase_eq_eFirst s).1 hp
      exact encoderInv_openRun hc hd hP (.inl hnil) (by simp [ho, hnil]) hv hf
    · obtain ⟨hf, hfull, -⟩ := (encoderInv_eHead (s := s) hp).1 hi
      obtain ⟨-, ho, hcount⟩ := hfull hv
      obtain ⟨hc, -, hd⟩ := (phase_eq_eHead s).1 hp
      exact encoderInv_openRun hc hd hP (.inr (.inr (ho ▸ hcount))) ho hv hf
  | countsByte ht hp hcap =>
    obtain ⟨h1, h2, hv, hf, P, hP, hb, ho⟩ := (encoderInv_eScan (s := s) hp).1 hi
    have hne : s.encCnt.toNat ≠ 255 := fun he => by simp [(atCap_iff _).2 he] at hcap
    have hinc : (inc s.encCnt).toNat = s.encCnt.toNat + 1 := inc_toNat _ h1 (by omega)
    refine (encoderInv_eScan (s := { deliver w ws s with encCnt := inc s.encCnt }) hp).2
      ⟨by simp [hinc], ?_, hv, hf, P, (consumedBytes_deliver_data ht ws s).trans ?_, hb, ho⟩
    · simp only [hinc]; omega
    · simp only [hP, hinc, rep_add, List.append_assoc]
      rfl
  | parksByte b ht hb hp =>
    obtain ⟨h1, h2, -, hf, P, hP, hat, ho⟩ := (encoderInv_eScan (s := s) hp).1 hi
    obtain ⟨hc, -, hd⟩ := (phase_eq_eScan s).1 hp
    exact encoderInv_closeRun hc hd ⟨h1, h2, .inl ⟨rfl, hb, hf⟩, P,
      (consumedBytes_deliver_data ht ws s).trans (by simp [hP]), hat, by simp [ho]⟩
  | notesEnd e he hp =>
    obtain ⟨h1, h2, hv, -, P, hP, hat, ho⟩ := (encoderInv_eScan (s := s) hp).1 hi
    obtain ⟨hc, -, hd⟩ := (phase_eq_eScan s).1 hp
    have hfin : e ≠ .fNone := by rcases he with ⟨-, rfl⟩ | ⟨-, rfl⟩ <;> decide
    have hend : tokenByte (TokWord.token w) = none := by
      rcases he with ⟨ht, -⟩ | ⟨ht, -⟩ <;> rw [ht] <;> rfl
    exact encoderInv_closeRun hc hd ⟨h1, h2, .inr (.inl ⟨hv, hfin⟩), P,
      (consumedBytes_deliver_end hend ws s).trans (by simp [hP, hv]), hat, by simp [ho]⟩

/-- With the value byte written the run's record is complete; what closed the run decides what
`E_HEAD` finds (R158, R160). -/
theorem headInv_of_emitInv {s : State} (h : EmitInv [narrow8 s.encCnt] s) (hf : s.encFin = .fNone) :
    HeadInv (acknowledge s.encVal s) := by
  obtain ⟨h1, h2, hclosed, P, hP, hat, ho⟩ := h
  have hout : s.out ++ [s.encVal] = encodeStream (P ++ rep s.encVal s.encCnt.toNat) := by
    rw [encodeStream_append_rep hat h1 h2, ho, narrow8_eq_ofNat, List.append_assoc]
    rfl
  have hlast : (P ++ rep s.encVal s.encCnt.toNat).getLast? = some s.encVal := by
    rw [rep_eq_replicate, List.getLast?_append, List.getLast?_replicate, if_neg (by omega)]
    rfl
  have hnil : P ++ rep s.encVal s.encCnt.toNat ≠ [] := fun he => by simp [he] at hlast
  refine ⟨hf, fun hv => ?_, fun hv => ?_⟩
  · have hv : s.encPendV = false := hv
    have hcnt : s.encCnt = 255#9 := by simpa [ClosedBy, hv, hf] using hclosed
    have hP' : consumedBytes (acknowledge s.encVal s) = P ++ rep s.encVal s.encCnt.toNat :=
      hP.trans (by simp [hv])
    rw [hP']
    refine ⟨hnil, hout, ?_⟩
    rw [acknowledge_out, ho, List.append_assoc, hcnt]
    exact lastCount_encodeStream_append P _ _
  · have hv : s.encPendV = true := hv
    have hne : s.encPendB ≠ s.encVal := by simpa [ClosedBy, hv, hf] using hclosed
    refine ⟨_, hP.trans (by simp [hv]), hnil, hout, ?_⟩
    rw [hlast]
    exact fun he => hne (Option.some.inj he).symm

theorem AnswerEffect.encoderInv {s u : State} (h : AnswerEffect s u) (hi : EncoderInv s) :
    EncoderInv u := by
  cases h with
  | fails | endsInput => exact encoderInv_of_not_enc (by simp)
  | writesCopy hp => exact encoderInv_of_not_enc (by simp [((phase_eq_dExp s).1 hp).1])
  | writesCount hp =>
    obtain ⟨h1, h2, hclosed, P, hP, hat, ho⟩ := (encoderInv_eEmitC hp).1 hi
    obtain ⟨hc, -, hd⟩ := (phase_eq_eEmitC s).1 hp
    rw [encoderInv_eEmitV (by simp [phase_eq_eEmitV, hc, hd])]
    exact ⟨h1, h2, hclosed, P, hP, hat, by simp [ho]⟩
  | endsRun hp hf =>
    obtain ⟨hc, -, hd⟩ := (phase_eq_eEmitV s).1 hp
    rw [encoderInv_eHead (by simp [phase_eq_eHead, hc, hd])]
    exact headInv_of_emitInv ((encoderInv_eEmitV hp).1 hi) hf

theorem InternalEffect.encoderInv {s u : State} (h : InternalEffect s u) (hi : EncoderInv s) :
    EncoderInv u := by
  cases h with
  | refusesCount => exact encoderInv_of_not_enc (by simp)
  | takesPending hp hv =>
    obtain ⟨hf, -, hpend⟩ := (encoderInv_eHead hp).1 hi
    obtain ⟨P, hP, -, ho, hlast⟩ := hpend hv
    obtain ⟨hc, -, hd⟩ := (phase_eq_eHead s).1 hp
    exact encoderInv_openRun (r := { s with encPendV := false }) hc hd hP (.inr (.inl hlast)) ho rfl hf
  | clamps hp hcap =>
    obtain ⟨h1, h2, hv, hf, P, hP, hat, ho⟩ := (encoderInv_eScan hp).1 hi
    obtain ⟨hc, -, hd⟩ := (phase_eq_eScan s).1 hp
    have hfull : s.encCnt = 255#9 := BitVec.eq_of_toNat_eq ((atCap_iff _).1 hcap)
    exact encoderInv_closeRun hc hd
      ⟨h1, h2, .inr (.inr ⟨hv, hf, hfull⟩), P, by simpa [hv] using hP, hat, by simp [ho]⟩

/-- The encoder's invariant is kept by every step (R160). -/
theorem encoderInv_step {s t : State} (hi : EncoderInv s) (h : step s = .next t) : EncoderInv t := by
  cases step_effect h with
  | reset => exact encoderInv_of_not_enc (by simp [takeReset])
  | hold => exact hi
  | command _ hready l ls _ heff => exact heff.encoderInv hready
  | token _ _ w ws _ heff => exact heff.encoderInv hi
  | answer _ _ a as _ heff => exact heff.encoderInv hi
  | internal _ _ heff => exact heff.encoderInv hi

/-! ### The decoder's invariant (R182) -/

theorem CommandEffect.decoderInv {s u : State} (h : CommandEffect s u) (hr : Ready s) :
    DecoderInv u := by
  cases h with
  | refuses | startsEncoder => exact decoderInv_of_not_dec (by simp)
  | startsDecoder => exact (decoderInv_dCnt (startDecode_phase hr)).2 ⟨rfl, rfl, rfl⟩

/-- At a record boundary behind the record `c`, `v`, expanded and warned of (R182). -/
theorem decoderInv_of_record {u : State} {P : Stream} {c v : Byte} (hp : u.phase = some .dCnt)
    (hP : consumedBytes u = P ++ [c, v]) (heven : P.length % 2 = 0)
    (ho : u.out = decodeStream P ++ rep v c.toNat)
    (hw : u.warnLog = List.replicate (zeroCounts P + if c = 0#8 then 1 else 0) .zeroCount) :
    DecoderInv u := by
  rw [decoderInv_dCnt hp, hP, decodeStream_append_record heven, zeroCounts_append_record heven]
  exact ⟨by simpa using heven, ho, hw⟩

theorem TokenEffect.decoderInv {s u : State} {w : TokWord} {ws : List TokWord}
    (h : TokenEffect (TokWord.token w) (deliver w ws s) u) (hi : DecoderInv s) : DecoderInv u := by
  cases h with
  | ends | breaksRecord => exact decoderInv_of_not_dec (by simp)
  | opensRun _ _ hp =>
    refine decoderInv_of_not_dec ?_
    rcases hp with hp | ⟨hp, -⟩
    · simp [((phase_eq_eFirst s).1 hp).1]
    · simp [((phase_eq_eHead s).1 hp).1]
  | countsByte _ hp | parksByte _ _ _ hp | notesEnd _ _ hp =>
    exact decoderInv_of_not_dec (by simp [((phase_eq_eScan s).1 hp).1])
  | latchesCount b ht hp =>
    obtain ⟨heven, ho, hw⟩ := (decoderInv_dCnt (s := s) hp).1 hi
    obtain ⟨hc, he, -⟩ := (phase_eq_dCnt s).1 hp
    rw [decoderInv_dVal (by simp [phase_eq_dVal, hc, he])]
    exact ⟨_, consumedBytes_deliver_data ht ws s, heven, ho, hw⟩
  | skipsRecord b ht hp hz =>
    obtain ⟨P, hP, heven, ho, hw⟩ := (decoderInv_dVal (s := s) hp).1 hi
    obtain ⟨hc, he, -⟩ := (phase_eq_dVal s).1 hp
    have hz : s.decCnt = 0#8 := hz
    exact decoderInv_of_record (c := 0#8) (v := b) (by simp [phase_eq_dCnt, hc, he])
      ((consumedBytes_deliver_data ht ws s).trans (by simp [hP, hz])) heven (by simp [ho, rep])
      (by simp [hw, List.replicate_succ'])
  | opensExpansion b ht hp hz =>
    obtain ⟨P, hP, heven, ho, hw⟩ := (decoderInv_dVal (s := s) hp).1 hi
    obtain ⟨hc, he, -⟩ := (phase_eq_dVal s).1 hp
    have hz : s.decCnt ≠ 0#8 := hz
    have hPb : consumedBytes (deliver w ws s) = P ++ [s.decCnt, b] :=
      (consumedBytes_deliver_data ht ws s).trans (by simp [hP])
    have hpos : 1 ≤ s.decCnt.toNat := Nat.pos_of_ne_zero fun h0 =>
      hz (BitVec.eq_of_toNat_eq h0)
    have hlog : s.warnLog =
        List.replicate (zeroCounts (consumedBytes (deliver w ws s))) .zeroCount := by
      rw [hPb, zeroCounts_append_record heven, if_neg hz]
      exact hw
    exact (decoderInv_dExp (by simp [phase_eq_dExp, hc, he])).2
      ⟨P, s.decCnt, hPb, heven, hpos, le_rfl, by simp [ho, rep], hlog⟩

theorem AnswerEffect.decoderInv {s u : State} (h : AnswerEffect s u) (hi : DecoderInv s) :
    DecoderInv u := by
  cases h with
  | fails | endsInput => exact decoderInv_of_not_dec (by simp)
  | writesCount hp => exact decoderInv_of_not_dec (by simp [((phase_eq_eEmitC s).1 hp).1])
  | endsRun hp => exact decoderInv_of_not_dec (by simp [((phase_eq_eEmitV s).1 hp).1])
  | writesCopy hp =>
    obtain ⟨P, c, hP, heven, h1, h2, ho, hw⟩ := (decoderInv_dExp hp).1 hi
    obtain ⟨hc, he, hd⟩ := (phase_eq_dExp s).1 hp
    have hdec : (dec s.decCnt).toNat = s.decCnt.toNat - 1 := dec_toNat _ fun h0 => by simp [h0] at h1
    have hout : s.out ++ [s.decVal] =
        decodeStream P ++ rep s.decVal (c.toNat - (dec s.decCnt).toNat) := by
      have hcnt : c.toNat - (dec s.decCnt).toNat = (c.toNat - s.decCnt.toNat) + 1 := by omega
      rw [ho, hcnt, rep_add, List.append_assoc]
      rfl
    by_cases hz : dec s.decCnt = 0#8
    · rw [hP, zeroCounts_append_record heven] at hw
      exact decoderInv_of_record (by simp [phase_eq_dCnt, hc, he, hz]) hP heven
        (by simpa [hz] using hout) hw
    · have hpos : 1 ≤ (dec s.decCnt).toNat := Nat.pos_of_ne_zero fun h0 =>
        hz (BitVec.eq_of_toNat_eq h0)
      exact (decoderInv_dExp (by simp [phase_eq_dExp, hc, he, hd, hz])).2
        ⟨P, c, hP, heven, hpos, by simp only [countOff_decCnt, acknowledge_decCnt]; omega, hout, hw⟩

/-- A step without an access is the encoder's, or ends its operation (R157). -/
theorem InternalEffect.decoderInv {s u : State} (h : InternalEffect s u) : DecoderInv u := by
  have hc := h.ctlSt_eq
  cases h with
  | takesPending | clamps | refusesCount => exact decoderInv_of_not_dec (by simp [hc])

/-- The decoder's invariant is kept by every step (R182). -/
theorem decoderInv_step {s t : State} (hi : DecoderInv s) (h : step s = .next t) : DecoderInv t := by
  cases step_effect h with
  | reset => exact decoderInv_of_not_dec (by simp [takeReset])
  | hold => exact hi
  | command _ hready l ls _ heff => exact heff.decoderInv hready
  | token _ _ w ws _ heff => exact heff.decoderInv hi
  | answer _ _ a as _ heff => exact heff.decoderInv hi
  | internal _ _ heff => exact heff.decoderInv

/-! ### Safety (R32, R157, R230) -/

theorem CommandEffect.noFault {s u : State} (h : CommandEffect s u) :
    OutcomeClass.of u.ctlOutcome ≠ .fault := by
  cases h with
  | refuses o ho => simp [ho]
  | startsEncoder | startsDecoder => simp [OutcomeClass.of]

theorem TokenEffect.noFault {t : Token} {s u : State} (h : TokenEffect t s u)
    (hs : OutcomeClass.of s.ctlOutcome ≠ .fault) : OutcomeClass.of u.ctlOutcome ≠ .fault := by
  cases h with
  | ends o ho => rcases ho with rfl | rfl | rfl <;> simp [OutcomeClass.of]
  | breaksRecord => simp [OutcomeClass.of]
  | opensRun | countsByte | parksByte | notesEnd | latchesCount | skipsRecord | opensExpansion =>
    exact hs

theorem AnswerEffect.noFault {s u : State} (h : AnswerEffect s u)
    (hs : OutcomeClass.of s.ctlOutcome ≠ .fault) : OutcomeClass.of u.ctlOutcome ≠ .fault := by
  cases h with
  | fails => simp [OutcomeClass.of]
  | endsInput o ho => rcases ho with rfl | rfl <;> simp [OutcomeClass.of]
  | writesCount | endsRun | writesCopy => exact hs

/-- The bounds checker never refuses: R160 keeps the count of a closed run in `1..255` (R157). -/
theorem InternalEffect.noFault {s u : State} (h : InternalEffect s u) (hi : EncoderInv s)
    (hs : OutcomeClass.of s.ctlOutcome ≠ .fault) : OutcomeClass.of u.ctlOutcome ≠ .fault := by
  cases h with
  | takesPending | clamps => exact hs
  | refusesCount hp hc =>
    obtain ⟨h1, h2, -⟩ := (encoderInv_eEmitC hp).1 hi
    simp [(lenOk_iff _).2 ⟨h1, h2⟩] at hc

/-- No step from a safe state that meets R160 leads to `FAULT_BOUNDS`. -/
theorem step_noFault {s t : State} (hi : EncoderInv s) (hs : OutcomeClass.of s.ctlOutcome ≠ .fault)
    (h : step s = .next t) : OutcomeClass.of t.ctlOutcome ≠ .fault := by
  cases step_effect h with
  | reset => simp [takeReset, OutcomeClass.of]
  | hold => exact hs
  | command _ _ l ls _ heff => exact heff.noFault
  | token _ _ w ws _ heff => exact heff.noFault hs
  | answer _ _ a as _ heff => exact heff.noFault hs
  | internal _ _ heff => exact heff.noFault hi hs

theorem safe_step {s t : State} (hi : EncoderInv s) (hs : Safe s) (h : step s = .next t) : Safe t := by
  obtain ⟨hp, ho⟩ := hs
  obtain ⟨u, hu, hup⟩ := step_answers hp
  obtain rfl : u = t := Host.Outcome.next.inj (hu.symm.trans h)
  exact ⟨hup, step_noFault hi ho h⟩

/-- An act of the environment touches nothing that safety and the two invariants speak of (R11). -/
theorem safe_env (e : EnvEvent) (s : State) : Safe (s.env e) ↔ Safe s := by
  cases e <;> exact Iff.rfl

theorem encoderInv_env (e : EnvEvent) (s : State) : EncoderInv (s.env e) ↔ EncoderInv s := by
  cases e <;> exact Iff.rfl

theorem decoderInv_env (e : EnvEvent) (s : State) : DecoderInv (s.env e) ↔ DecoderInv s := by
  cases e <;> exact Iff.rfl

/-- Safety and the two invariants, together, hold along every run from reset. -/
theorem reachable_safe_inv {s : State} (h : Reachable s) : Safe s ∧ EncoderInv s ∧ DecoderInv s := by
  induction h with
  | reset => exact ⟨safe_reset, trivial, trivial⟩
  | step _ hstep ih =>
    obtain ⟨hs, he, hd⟩ := ih
    exact ⟨safe_step he hs hstep, encoderInv_step he hstep, decoderInv_step hd hstep⟩
  | env e _ ih =>
    obtain ⟨hs, he, hd⟩ := ih
    exact ⟨(safe_env e _).2 hs, (encoderInv_env e _).2 he, (decoderInv_env e _).2 hd⟩

/-- Settles O54: the invariants by induction on the run (`reachable_safe_inv`), the step by
`step_answers`. -/
theorem reachableStatesAreSafeAndStep : Obligations.ReachableStatesAreSafeAndStep := by
  intro s h
  obtain ⟨hs, he, hd⟩ := reachable_safe_inv h
  obtain ⟨t, ht, -⟩ := step_answers hs.1
  exact ⟨hs, he, hd, t, ht⟩

end Sys2Proof.Machine
end

section
/-!
SUPPORT. What the core reads and when it waits: no token is read after a terminal (R63), a word the core
does not ask for changes nothing (R36, R78, R96), and a partner that offers nothing holds the state (R77).
-/

namespace Sys2Proof.Machine

/-! ### The source invariant (R63) -/

/-- Every token consumed in the operation is a byte. -/
def OnlyBytesSeen (s : State) : Prop := ∀ t ∈ s.srcSeen, isData t

/-- The run in progress was closed by the end of the input and is being written (R153, R154). -/
def WritingLastRun (s : State) : Prop :=
  (s.phase = some .eEmitC ∨ s.phase = some .eEmitV) ∧ s.encFin ≠ .fNone

/-- The states that meet R63: no operation runs, its last run is being written, or no terminal has come. -/
theorem sourceInv_iff (s : State) :
    SourceInv s ↔ Ready s ∨ WritingLastRun s ∨ OnlyBytesSeen s := by
  unfold SourceInv Ready WritingLastRun OnlyBytesSeen
  cases s.phase with
  | none => simp
  | some p => cases p <;> simp [imp_iff_not_or]

theorem sourceInv_of_done {s : State} (h : s.phase = some .done) : SourceInv s :=
  (sourceInv_iff s).2 (.inl (.inr h))

theorem sourceInv_of_onlyBytesSeen {s : State} (h : OnlyBytesSeen s) : SourceInv s :=
  (sourceInv_iff s).2 (.inr (.inr h))

/-- Where the last run is being written the core asks for no token (R36). -/
theorem srcReady_of_writingLastRun {s : State} (h : WritingLastRun s) : srcReady s = false := by
  obtain ⟨hp | hp, -⟩ := h <;> simp [srcReady, hp]

theorem srcReady_of_ready {s : State} (h : Ready s) : srcReady s = false := by
  rcases h with hp | hp <;> simp [srcReady, hp]

theorem snkValid_of_ready {s : State} (h : Ready s) : snkValid s = false := by
  rcases h with hp | hp <;> simp [snkValid, hp]

/-- A core that asks for a token has read no terminal (R63). -/
theorem onlyBytesSeen_of_srcReady {s : State} (hi : SourceInv s) (h : srcReady s = true) :
    OnlyBytesSeen s := by
  rcases (sourceInv_iff s).1 hi with hready | hlast | hseen
  · simp [srcReady_of_ready hready] at h
  · simp [srcReady_of_writingLastRun hlast] at h
  · exact hseen

/-- `onlyBytesSeen_of_srcReady` for a busy core that asks for no token: it is not writing the last run. -/
theorem onlyBytesSeen_of_phase {s : State} {p : Phase} (hi : SourceInv s) (hp : s.phase = some p)
    (hbusy : p ≠ .idle ∧ p ≠ .done) (hrun : (p ≠ .eEmitC ∧ p ≠ .eEmitV) ∨ s.encFin = .fNone) :
    OnlyBytesSeen s := by
  rcases (sourceInv_iff s).1 hi with hready | ⟨hemit, hfin⟩ | hseen
  · simp [Ready, hp, hbusy] at hready
  · rcases hrun with ⟨hC, hV⟩ | hf
    · simp [hp, hC, hV] at hemit
    · exact absurd hf hfin
  · exact hseen

/-- One more byte is one more token that is no terminal. -/
theorem onlyBytesSeen_deliver {s : State} {w : TokWord} {b : Byte} (h : OnlyBytesSeen s)
    (hw : TokWord.token w = .data b) (ws : List TokWord) : OnlyBytesSeen (deliver w ws s) := by
  intro t ht
  rcases List.mem_append.1 ht with ht | ht
  · exact h t ht
  · rw [List.mem_singleton.1 ht, hw]
    rfl

/-- An accepted command has consumed nothing (R200). -/
theorem CommandEffect.sourceInv {s u : State} (h : CommandEffect s u) : SourceInv u := by
  have hnil : u.srcSeen = [] := by cases h <;> rfl
  exact sourceInv_of_onlyBytesSeen (by simp [OnlyBytesSeen, hnil])

/-- A byte keeps the delivered tokens bytes; a terminal ends the operation or closes the last run. -/
theorem TokenEffect.sourceInv {s u : State} {w : TokWord} {ws : List TokWord}
    (h : TokenEffect (TokWord.token w) (deliver w ws s) u) (hs : OnlyBytesSeen s) : SourceInv u := by
  cases h with
  | ends | breaksRecord => exact sourceInv_of_done rfl
  | opensRun b ht | parksByte b ht | latchesCount b ht | skipsRecord b ht | opensExpansion b ht
  | countsByte ht =>
    exact sourceInv_of_onlyBytesSeen (onlyBytesSeen_deliver hs ht ws)
  | notesEnd e he hp =>
    obtain ⟨hc, -, hd⟩ := (phase_eq_eScan s).1 hp
    have hfin : e ≠ .fNone := by rcases he with ⟨-, rfl⟩ | ⟨-, rfl⟩ <;> decide
    exact (sourceInv_iff _).2 (.inr (.inl ⟨.inl (by simp [phase_eq_eEmitC, hc, hd]), hfin⟩))

/-- An answer delivers no token; only a run that no terminal closed leads back to reading (R158). -/
theorem AnswerEffect.sourceInv {s u : State} (h : AnswerEffect s u) (hi : SourceInv s) :
    SourceInv u := by
  cases h with
  | fails | endsInput => exact sourceInv_of_done rfl
  | writesCount hp =>
    by_cases hf : s.encFin = .fNone
    · have hs : OnlyBytesSeen s := onlyBytesSeen_of_phase hi hp (by decide) (.inr hf)
      exact sourceInv_of_onlyBytesSeen hs
    · obtain ⟨hc, -, hd⟩ := (phase_eq_eEmitC s).1 hp
      exact (sourceInv_iff _).2 (.inr (.inl ⟨.inr (by simp [phase_eq_eEmitV, hc, hd]), hf⟩))
  | endsRun hp hf =>
    have hs : OnlyBytesSeen s := onlyBytesSeen_of_phase hi hp (by decide) (.inr hf)
    exact sourceInv_of_onlyBytesSeen hs
  | writesCopy hp =>
    have hs : OnlyBytesSeen s := onlyBytesSeen_of_phase hi hp (by decide) (.inl (by decide))
    exact sourceInv_of_onlyBytesSeen hs

/-- A step without an access delivers no token; the one made in `E_EMITC` ends the operation (R157). -/
theorem InternalEffect.sourceInv {s u : State} (h : InternalEffect s u) (hi : SourceInv s) :
    SourceInv u := by
  cases h with
  | refusesCount => exact sourceInv_of_done rfl
  | takesPending hp | clamps hp =>
    have hs : OnlyBytesSeen s := onlyBytesSeen_of_phase hi hp (by decide) (.inl (by decide))
    exact sourceInv_of_onlyBytesSeen hs

/-- The source invariant is kept by every step (R63). -/
theorem sourceInv_step {s t : State} (hi : SourceInv s) (h : step s = .next t) : SourceInv t := by
  cases step_effect h with
  | reset => exact (sourceInv_iff _).2 (.inl (.inl rfl))
  | hold => exact hi
  | command _ _ l ls _ heff => exact heff.sourceInv
  | token _ hrdy w ws _ heff => exact heff.sourceInv (onlyBytesSeen_of_srcReady hi hrdy)
  | answer _ _ a as _ heff => exact heff.sourceInv hi
  | internal _ _ heff => exact heff.sourceInv hi

/-- Settles O52: the invariant along every step by the effects of the transfers (`sourceInv_step`), and
what it says where a token is asked for (`onlyBytesSeen_of_srcReady`). -/
theorem nothingIsReadAfterATerminal : Obligations.NothingIsReadAfterATerminal :=
  ⟨fun _ _ => sourceInv_step, fun _ => onlyBytesSeen_of_srcReady⟩

/-! ### Words the core does not ask for (R36, R78, R96) -/

/-- In the ten phases a meaning that leaves the state alone answers that state. -/
theorem inPhase_self {s : State} (h : s.phase ≠ none) : inPhase s s = .next s :=
  (inPhase_next s s s).2 ⟨h, rfl⟩

/-- A token word acts as the token it stands for (R99). -/
theorem exec_decodeTok (t : TokWord) (s : State) :
    exec (decodeTok t) s = inPhase s (takeToken (TokWord.token t) s) := by
  unfold decodeTok TokWord.token
  split_ifs <;> rfl

/-- The two answers of the sink (R100). -/
theorem exec_decodeWresp (a : WrespWord) (s : State) :
    exec (decodeWresp a) s = inPhase s (if a = 0#1 then answerOk s else answerFail s) := by
  unfold decodeWresp
  split_ifs <;> rfl

/-- An answer `OK` without a transfer changes nothing (R78). -/
theorem answerOk_idle {s : State} (h : snkValid s = false) : answerOk s = s := by
  unfold snkValid at h
  unfold answerOk
  cases hp : s.phase with
  | none => rfl
  | some p => cases p <;> simp_all

/-- An answer `FAIL` without a transfer changes nothing (R78). -/
theorem answerFail_idle {s : State} (h : snkValid s = false) : answerFail s = s := by
  simp [answerFail_eq, h]

/-- A bare terminal is no form of its own away from a record boundary (R96). -/
theorem onBoundary_ignored {s : State} (h : s.phase ≠ none) (hp : s.phase ≠ some .dCnt) (t : Token) :
    onBoundary t s = .next s := by
  rw [onBoundary, if_neg hp, inPhase_self h]

/-- A record whose last token the decoder is not waiting for has no effect (R96). -/
theorem onRecord_ignored {s : State} {c : Byte} (h : s.phase ≠ none)
    (hc : s.phase ≠ some .dVal ∨ s.decCnt ≠ c) (t : Token) : onRecord c t s = .next s := by
  rw [onRecord, if_neg (not_and_or.2 hc), inPhase_self h]

/-- A warning word has no effect where none is raised (R102, R231). -/
theorem onWarning_ignored {s : State} (h : s.phase ≠ none) (hp : s.phase ≠ some .dVal) (k : Warning) :
    onWarning k s = .next s := by
  rw [onWarning, if_neg hp, inPhase_self h]

/-- Settles O30: each kind of word out of place by the lemma on the operation it runs. -/
theorem wordsAreIgnoredWithoutATransfer : Obligations.WordsAreIgnoredWithoutATransfer := by
  intro s h
  refine ⟨fun hsrc t => ?_, fun hsnk a => ?_,
    fun hready => ⟨srcReady_of_ready hready, snkValid_of_ready hready⟩,
    fun hp _ _ => ⟨onBoundary_ignored h hp _, onBoundary_ignored h hp _⟩,
    fun c hc _ _ _ => ⟨onRecord_ignored h hc _, onRecord_ignored h hc _, onRecord_ignored h hc _⟩,
    fun hc _ => onRecord_ignored h hc _,
    fun hp => ⟨onWarning_ignored h hp _, onWarning_ignored h hp _⟩⟩
  · rw [exec_decodeTok, takeToken_idle hsrc, inPhase_self h]
  · rw [exec_decodeWresp, answerOk_idle hsnk, answerFail_idle hsnk, ite_self, inPhase_self h]

/-! ### A partner that offers nothing (R77) -/

theorem phase_of_access {s : State} {a : Access} (h : access s = some a) : s.phase ≠ none :=
  fun hn => by simp [(access_none s).2 hn] at h

/-- A step that only drives the status word is a hold (R77, R101). -/
theorem step_of_fetch_status {s : State} (hr : s.rst = false) (hp : s.phase ≠ none)
    (h : fetch (clearPulse s) = .word (statusInstr (clearPulse s)) (clearPulse s)) :
    step s = .next (clearPulse s) := by
  have hstep : step s = inPhase (clearPulse s) (clearPulse s) := by
    simp only [step, hr, h]
    rfl
  rw [hstep, inPhase_self (s := clearPulse s) hp]

/-- Settles O34: at each port an empty offer makes the fetch a status word, and such a step is a hold. -/
theorem waitingForAPartnerHoldsTheState : Obligations.WaitingForAPartnerHoldsTheState := by
  intro s hr
  refine ⟨fun h hnone => ?_, fun h hnone => ?_, fun h hnone => ?_⟩
  · have ha := (access_command s).2 h
    exact step_of_fetch_status hr (phase_of_access ha) (by simp [fetch, ha, hnone])
  · have ha := (access_source s).2 h
    exact step_of_fetch_status hr (phase_of_access ha) (by simp [fetch, ha, hnone])
  · have ha := (access_sink s).2 h
    exact step_of_fetch_status hr (phase_of_access ha) (by simp [fetch, ha, hnone])

end Sys2Proof.Machine
end

section
/-!
SUPPORT. Decoding and encoding as inverses of each other: the fields of the words of each format, and the
statements of the encoding family that follow (R91, R96 to R104).
-/

namespace Sys2Proof

/-! ### The fields of a word -/

/-- A token word is its kind above its data bits (R99). -/
theorem kind_append_dataBits (t : TokWord) : TokWord.kind t ++ TokWord.dataBits t = t :=
  BitVec.extractLsb'_append_extractLsb'

/-- The token is `ERR` exactly when the upper bit of its kind is 1 (R99). -/
theorem kind_err_iff (t : TokWord) :
    (TokWord.kind t ≠ 0b00#2 ∧ TokWord.kind t ≠ 0b01#2) ↔ t.extractLsb' 9 1 = 1#1 := by
  have upper : ∀ k : BitVec 2, (k ≠ 0b00#2 ∧ k ≠ 0b01#2) ↔ k.extractLsb' 1 1 = 1#1 := by decide
  have hbit : (TokWord.kind t).extractLsb' 1 1 = t.extractLsb' 9 1 := by
    apply BitVec.eq_of_getLsbD_eq
    intro i hi
    obtain rfl : i = 0 := by omega
    simp [TokWord.kind]
  rw [upper, hbit]

/-- The fields of an `ERR` token as the forms `FAIL` and `BREAK` hold it (R96). -/
theorem failTok_fields (r : BitVec 9) :
    TokWord.kind (0b1#1 ++ r) ≠ 0b00#2 ∧ TokWord.kind (0b1#1 ++ r) ≠ 0b01#2 ∧
      (0b1#1 ++ r : TokWord).extractLsb' 0 9 = r := by
  obtain ⟨h0, h1⟩ := (kind_err_iff (0b1#1 ++ r)).2 (extract_append_high (0b1#1) r)
  exact ⟨h0, h1, extract_append_low (0b1#1) r⟩

/-- An `ERR` token is the bit 1 above nine bits that nothing examines (R96, R99). -/
theorem one_append_of_kind_err {t : TokWord} (h0 : TokWord.kind t ≠ 0b00#2)
    (h1 : TokWord.kind t ≠ 0b01#2) : 0b1#1 ++ t.extractLsb' 0 9 = t := by
  rw [← (kind_err_iff t).1 ⟨h0, h1⟩]
  exact BitVec.extractLsb'_append_extractLsb'

/-- The kind that is none of the other three is the reserved one (R99). -/
theorem kind_eq_rsvd {k : BitVec 2} : k ≠ 0b00#2 → k ≠ 0b01#2 → k ≠ 0b10#2 → k = 0b11#2 := by
  revert k
  decide

/-- The fields of a status word (R101). -/
theorem status_fields (b d : Bool) (c : BitVec 4) :
    (bit b ++ bit d ++ c : StatusWord).getLsbD 5 = b ∧
    (bit b ++ bit d ++ c : StatusWord).getLsbD 4 = d ∧
    (bit b ++ bit d ++ c : StatusWord).extractLsb' 0 4 = c :=
  ⟨by rw [BitVec.getLsbD_append, BitVec.getLsbD_append]; simp [bit],
    by rw [BitVec.getLsbD_append, BitVec.getLsbD_append]; simp [bit],
    extract_append_low (bit b ++ bit d) c⟩

/-- A status word is its two flags above the code of its outcome (R101). -/
theorem statusWord_eq_append (w : StatusWord) :
    bit (w.getLsbD 5) ++ bit (w.getLsbD 4) ++ w.extractLsb' 0 4 = w := by
  revert w
  decide

/-- The code of an outcome names it (R220). -/
theorem ofCode_code (o : OpOutcome) : OpOutcome.ofCode o.code = some o := by
  cases o <;> rfl

/-- A code names only the outcome it is the code of (R220). -/
theorem code_of_ofCode {c : BitVec 4} {o : OpOutcome} (h : OpOutcome.ofCode c = some o) :
    o.code = c := by
  unfold OpOutcome.ofCode at h
  split_ifs at h <;> (rw [← Option.some.inj h]; symm; assumption)

/-! ### The two checks of well-formedness -/

theorem wf_run (c v : Byte) : (Instr.run c v).wf = true ↔ c ≠ 0#8 := by
  simp only [Instr.wf, bne_iff_ne]

theorem wf_status (b d : Bool) (o : OpOutcome) :
    (Instr.status b d o).wf = true ↔ (b && d) = false := by
  simp only [Instr.wf, Bool.not_eq_true']

/-! ### What each decoder reads from the fields (R91, R96 to R102) -/

@[simp] theorem decode_status_toNat (w : StatusWord) : decode .status w.toNat = decodeStatus w := by
  rw [decode_of_lt w.isLt, decodeFitting, BitVec.ofNat_toNat, BitVec.setWidth_eq]

/-- A token word by its kind (R99). -/
theorem decodeTok_append (k : BitVec 2) (d : Byte) :
    decodeTok (k ++ d) =
      if k = 0b00#2 then .tokData d else if k = 0b01#2 then .tokEos d
      else if k = 0b10#2 then .tokErr d else .tokRsvd d := by
  obtain ⟨hk, hd⟩ := tok_fields k d
  rw [decodeTok, hk, hd]

/-- A record word by its count (R96). -/
theorem decodePair_append (c v : Byte) :
    decodePair (c ++ v) = if c = 0#8 then .zrun v else .run c v := by
  obtain ⟨hc, hv⟩ := pair_fields c v
  simp only [decodePair, hc, hv]

/-- The token `EOS` at a record boundary is the form `END` (R96). -/
theorem decodeBoundary_eos (ign : BitVec 8) : decodeBoundary (0b01#2 ++ ign) = .endRec ign := by
  obtain ⟨hk, hd⟩ := tok_fields 0b01#2 ign
  rw [decodeBoundary, hk, hd]
  rfl

/-- The token `ERR` at a record boundary is the form `FAIL` (R96). -/
theorem decodeBoundary_err (ign : BitVec 9) : decodeBoundary (0b1#1 ++ ign) = .failRec ign := by
  obtain ⟨h0, h1, hr⟩ := failTok_fields ign
  rw [decodeBoundary, if_neg h0, if_neg h1, hr]

/-- The token `EOS` after a count byte is the form `HALF` (R96). -/
theorem decodeAfterCount_eos (c : Byte) (ign : BitVec 8) :
    decodeAfterCount c (0b01#2 ++ ign) = .halfRec c ign := by
  obtain ⟨hk, hd⟩ := tok_fields 0b01#2 ign
  rw [decodeAfterCount, hk, hd]
  rfl

/-- The token `ERR` after a count byte is the form `BREAK` (R96). -/
theorem decodeAfterCount_err (c : Byte) (ign : BitVec 9) :
    decodeAfterCount c (0b1#1 ++ ign) = .breakRec c ign := by
  obtain ⟨h0, h1, hr⟩ := failTok_fields ign
  rw [decodeAfterCount, if_neg h0, if_neg h1, hr]

/-- The 18-bit groups, byte above token (R92, log 5). -/
theorem encode_halfRec (c : Byte) (ign : BitVec 8) :
    encode (.halfRec c ign) = (c ++ (0b01#2 ++ ign : TokWord)).toNat :=
  congrArg BitVec.toNat BitVec.append_assoc

theorem encode_breakRec (c : Byte) (ign : BitVec 9) :
    encode (.breakRec c ign) = (c ++ (0b1#1 ++ ign : TokWord)).toNat :=
  congrArg BitVec.toNat BitVec.append_assoc

theorem decodeHalfTok_eos (c : Byte) (ign : BitVec 8) :
    decodeHalfTok (c ++ (0b01#2 ++ ign : TokWord)) = .ok (.halfRec c ign) := by
  have hk : TokWord.kind (0b01#2 ++ ign) ≠ 0b00#2 := by
    rw [(tok_fields 0b01#2 ign).1]
    decide
  exact (decodeHalfTok_append c hk).trans (congrArg _ (decodeAfterCount_eos c ign))

theorem decodeHalfTok_err (c : Byte) (ign : BitVec 9) :
    decodeHalfTok (c ++ (0b1#1 ++ ign : TokWord)) = .ok (.breakRec c ign) :=
  (decodeHalfTok_append c (failTok_fields ign).1).trans (congrArg _ (decodeAfterCount_err c ign))

/-- A status word whose flags are not both 1 by the code of its outcome (R34, R101). -/
theorem decodeStatus_append {b d : Bool} (h : (b && d) = false) (c : BitVec 4) :
    decodeStatus (bit b ++ bit d ++ c) =
      (OpOutcome.ofCode c).elim (.error .unusedOutcomeCode) (fun o => .ok (.status b d o)) := by
  obtain ⟨hb, hd, hc⟩ := status_fields b d c
  simp only [decodeStatus, hb, hd, hc, h]
  cases OpOutcome.ofCode c <;> rfl

/-- Both flags of a status word 1 are refused, whatever the code (R34). -/
theorem decodeStatus_busyAndDone (c : BitVec 4) :
    decodeStatus (bit true ++ bit true ++ c) = .error .busyAndDone := by
  obtain ⟨hb, hd, -⟩ := status_fields true true c
  simp only [decodeStatus, hb, hd]
  rfl

/-! ### Decoding after encoding -/

/-- The word of a well-formed instruction decodes to it. -/
theorem decode_encode {i : Instr} (h : i.wf = true) : decode i.format (encode i) = .ok i := by
  cases i with
  | encode => rfl
  | decode => rfl
  | badmode0 a b => cases a <;> cases b <;> rfl
  | badmode3 a b => cases a <;> cases b <;> rfl
  | encodeNosrc b => cases b <;> rfl
  | decodeNosrc b => cases b <;> rfl
  | encodeNosnk => rfl
  | decodeNosnk => rfl
  | zrun v => exact (decode_pair_toNat _).trans (congrArg _ (decodePair_append 0#8 v))
  | run c v =>
    exact (decode_pair_toNat _).trans
      (congrArg _ ((decodePair_append c v).trans (if_neg ((wf_run c v).1 h))))
  | endRec ign => exact (decode_boundary_toNat _).trans (congrArg _ (decodeBoundary_eos ign))
  | failRec ign => exact (decode_boundary_toNat _).trans (congrArg _ (decodeBoundary_err ign))
  | halfRec c ign =>
    rw [encode_halfRec]
    exact (decode_halfTok_toNat _).trans (decodeHalfTok_eos c ign)
  | breakRec c ign =>
    rw [encode_breakRec]
    exact (decode_halfTok_toNat _).trans (decodeHalfTok_err c ign)
  | tokData d => exact (decode_tok_toNat _).trans (congrArg _ (decodeTok_append _ d))
  | tokEos ign => exact (decode_tok_toNat _).trans (congrArg _ (decodeTok_append _ ign))
  | tokErr ign => exact (decode_tok_toNat _).trans (congrArg _ (decodeTok_append _ ign))
  | tokRsvd ign => exact (decode_tok_toNat _).trans (congrArg _ (decodeTok_append _ ign))
  | wrespOk => rfl
  | wrespFail => rfl
  | warnZeroCount => rfl
  | warnTruncated => rfl
  | status b d o =>
    refine (decode_status_toNat _).trans ?_
    rw [decodeStatus_append ((wf_status b d o).1 h), ofCode_code]
    rfl

/-- Settles O40: instruction by instruction, each decoder on the fields of the word. -/
theorem decodeOfEncodeIsTheInstruction : Obligations.DecodeOfEncodeIsTheInstruction :=
  fun _ => decode_encode

/-! ### Encoding after decoding -/

theorem encode_decodeCmd (w : CmdWord) :
    (decodeCmd w).wf = true ∧ encode (decodeCmd w) = w.toNat := by
  revert w
  decide

/-- A token word from its kind and its data bits (R99). -/
theorem append_dataBits_of_kind {t : TokWord} {k : BitVec 2} (h : TokWord.kind t = k) :
    k ++ TokWord.dataBits t = t := by
  rw [← h, kind_append_dataBits]

theorem encode_decodeTok (t : TokWord) :
    (decodeTok t).wf = true ∧ encode (decodeTok t) = t.toNat := by
  unfold decodeTok
  split_ifs with h0 h1 h2
  · exact ⟨rfl, congrArg BitVec.toNat (append_dataBits_of_kind h0)⟩
  · exact ⟨rfl, congrArg BitVec.toNat (append_dataBits_of_kind h1)⟩
  · exact ⟨rfl, congrArg BitVec.toNat (append_dataBits_of_kind h2)⟩
  · exact ⟨rfl, congrArg BitVec.toNat (append_dataBits_of_kind (kind_eq_rsvd h0 h1 h2))⟩

theorem encode_decodeBoundary (t : TokWord) :
    (decodeBoundary t).wf = true ∧ encode (decodeBoundary t) = t.toNat := by
  unfold decodeBoundary
  split_ifs with h0 h1
  · exact ⟨rfl, congrArg BitVec.toNat (append_dataBits_of_kind h0)⟩
  · exact ⟨rfl, congrArg BitVec.toNat (append_dataBits_of_kind h1)⟩
  · exact ⟨rfl, congrArg BitVec.toNat (one_append_of_kind_err h0 h1)⟩

theorem encode_decodePair (r : BitVec 16) :
    (decodePair r).wf = true ∧ encode (decodePair r) = r.toNat := by
  have hr : r.extractLsb' 8 8 ++ r.extractLsb' 0 8 = r := BitVec.extractLsb'_append_extractLsb'
  simp only [decodePair]
  split_ifs with hc
  · rw [hc] at hr
    exact ⟨rfl, congrArg BitVec.toNat hr⟩
  · exact ⟨(wf_run _ _).2 hc, congrArg BitVec.toNat hr⟩

/-- The token that follows a count byte, `DATA` aside, as the end of an 18-bit group (R92, R96). -/
theorem encode_decodeAfterCount (c : Byte) {t : TokWord} (h0 : TokWord.kind t ≠ 0b00#2) :
    (decodeAfterCount c t).wf = true ∧ encode (decodeAfterCount c t) = (c ++ t).toNat := by
  unfold decodeAfterCount
  rw [if_neg h0]
  split_ifs with h1
  · refine ⟨rfl, (encode_halfRec c _).trans ?_⟩
    rw [append_dataBits_of_kind h1]
  · refine ⟨rfl, (encode_breakRec c _).trans ?_⟩
    rw [one_append_of_kind_err h0 h1]

theorem encode_of_decodeHalfTok {w : BitVec 18} {i : Instr} (h : decodeHalfTok w = .ok i) :
    i.wf = true ∧ encode i = w.toNat := by
  have hw : w.extractLsb' 10 8 ++ w.extractLsb' 0 10 = w := BitVec.extractLsb'_append_extractLsb'
  simp only [decodeHalfTok] at h
  split_ifs at h with h0
  obtain ⟨hwf, henc⟩ := encode_decodeAfterCount (w.extractLsb' 10 8) h0
  rw [← Except.ok.inj h]
  exact ⟨hwf, henc.trans (congrArg BitVec.toNat hw)⟩

theorem encode_decodeWresp (a : WrespWord) :
    (decodeWresp a).wf = true ∧ encode (decodeWresp a) = a.toNat := by
  revert a
  decide

theorem encode_of_decodeWarn {w : WarnWord} {i : Instr} (h : decodeWarn w = .ok i) :
    i.wf = true ∧ encode i = w.toNat := by
  unfold decodeWarn at h
  split_ifs at h with h1 h2
  · rw [← Except.ok.inj h, h1]
    exact ⟨rfl, rfl⟩
  · rw [← Except.ok.inj h, h2]
    exact ⟨rfl, rfl⟩

theorem encode_of_decodeStatus {w : StatusWord} {i : Instr} (h : decodeStatus w = .ok i) :
    i.wf = true ∧ encode i = w.toNat := by
  have hw := statusWord_eq_append w
  simp only [decodeStatus] at h
  split_ifs at h with hbd
  split at h
  · next o ho =>
    rw [← Except.ok.inj h]
    refine ⟨(wf_status _ _ _).2 (Bool.eq_false_iff.2 hbd), congrArg BitVec.toNat ?_⟩
    rw [code_of_ofCode ho, hw]
  · cases h

/-- What a port's decoder reads from the low bits of a number encodes to those bits. -/
theorem encode_of_decodeFitting {f : Format} {w : Nat} {i : Instr} (h : decodeFitting f w = .ok i) :
    i.wf = true ∧ encode i = w % 2 ^ f.width := by
  cases f with
  | cmd => exact Except.ok.inj h ▸ encode_decodeCmd (BitVec.ofNat 4 w)
  | tok => exact Except.ok.inj h ▸ encode_decodeTok (BitVec.ofNat 10 w)
  | boundary => exact Except.ok.inj h ▸ encode_decodeBoundary (BitVec.ofNat 10 w)
  | pair => exact Except.ok.inj h ▸ encode_decodePair (BitVec.ofNat 16 w)
  | halfTok => exact encode_of_decodeHalfTok h
  | wresp => exact Except.ok.inj h ▸ encode_decodeWresp (BitVec.ofNat 1 w)
  | warn => exact encode_of_decodeWarn h
  | status => exact encode_of_decodeStatus h

/-- A decoded number is the word of the instruction, which is well-formed. -/
theorem encode_of_decode {f : Format} {w : Nat} {i : Instr} (h : decode f w = .ok i) :
    i.wf = true ∧ encode i = w := by
  by_cases hlt : w < 2 ^ f.width
  · rw [decode_of_lt hlt] at h
    rw [← Nat.mod_eq_of_lt hlt]
    exact encode_of_decodeFitting h
  · rw [decode_of_ge hlt] at h
    cases h

/-- Settles O41: format by format, the fields a decoder reads put together again. -/
theorem encodeOfDecodeIsTheWord : Obligations.EncodeOfDecodeIsTheWord :=
  fun _ _ _ => encode_of_decode

/-! ### Words a partner can give, and words never driven (R104) -/

/-- The codes 9 to 14 name no outcome (R220). -/
theorem ofCode_eq_none {c : Nat} (h1 : 9 ≤ c) (h2 : c ≤ 14) :
    OpOutcome.ofCode (BitVec.ofNat 4 c) = none := by
  interval_cases c <;> rfl

/-- The number of a status word from its flags and a code (R101). -/
theorem statusWord_toNat (b d : Bool) {c : Nat} (h : c < 16) :
    (bit b ++ bit d ++ BitVec.ofNat 4 c : StatusWord).toNat = 32 * b.toNat + 16 * d.toNat + c := by
  have hflags : (bit b ++ bit d).toNat = 2 * b.toNat + d.toNat := by cases b <;> cases d <;> rfl
  have hcode : (BitVec.ofNat 4 c).toNat = c := Nat.mod_eq_of_lt h
  refine (BitVec.toNat_append _ _).trans ?_
  rw [hflags, hcode, ← Nat.shiftLeft_add_eq_or_of_lt h, Nat.shiftLeft_eq]
  omega

/-- A status word with a code that names no outcome is refused (R220). -/
theorem decode_status_unusedCode {b d : Bool} (h : (b && d) = false) {c : Nat} (h1 : 9 ≤ c)
    (h2 : c ≤ 14) :
    decode .status (32 * b.toNat + 16 * d.toNat + c) = .error .unusedOutcomeCode := by
  rw [← statusWord_toNat b d (by omega)]
  refine (decode_status_toNat _).trans ?_
  rw [decodeStatus_append h, ofCode_eq_none h1 h2]
  rfl

/-- Settles O42: a port's decoder answers every word that fits, and the words never driven are refused by
the code or by the two flags. -/
theorem everyInputWordDecodesAndUnusedWordsAreRefused :
    Obligations.EveryInputWordDecodesAndUnusedWordsAreRefused := by
  refine ⟨fun f w hw hwarn hstatus hhalf => ?_, fun c t hk => ?_, rfl, rfl, fun c h1 h2 => ?_,
    fun c h => ?_⟩
  · rw [decode_of_lt hw]
    cases f with
    | cmd | tok | boundary | pair | wresp => exact ⟨_, rfl⟩
    | halfTok => exact absurd rfl hhalf
    | warn => exact absurd rfl hwarn
    | status => exact absurd rfl hstatus
  · exact ⟨_, (decode_halfTok_toNat _).trans (decodeHalfTok_append c hk)⟩
  · exact ⟨decode_status_unusedCode (b := false) (d := false) rfl h1 h2,
      decode_status_unusedCode (b := false) (d := true) rfl h1 h2,
      decode_status_unusedCode (b := true) (d := false) rfl h1 h2⟩
  · have hw := statusWord_toNat true true (c := c) (by omega)
    refine (congrArg (decode .status) hw.symm).trans ?_
    exact (decode_status_toNat _).trans (decodeStatus_busyAndDone _)

/-! ### Words written out -/

/-- Settles O39: each of the eleven numbers is the word of its instruction. -/
theorem wordsOfTheTableDecodeToTheirRows : Obligations.WordsOfTheTableDecodeToTheirRows :=
  ⟨decode_encode (i := .encode) rfl, decode_encode (i := .decode) rfl,
    decode_encode (i := .encodeNosrc true) rfl, decode_encode (i := .run 0x02#8 0x41#8) rfl,
    decode_encode (i := .zrun 0x41#8) rfl, decode_encode (i := .endRec 0#8) rfl,
    decode_encode (i := .halfRec 5#8 0#8) rfl, decode_encode (i := .tokData 0x41#8) rfl,
    decode_encode (i := .wrespFail) rfl, decode_encode (i := .warnTruncated) rfl,
    decode_encode (i := .status false true .errMode) rfl⟩

end Sys2Proof

namespace Sys2Proof.Machine

/-! ### What the decoded words do (R34, R96, R99, R101) -/

/-- Settles O15: the decode is by the kind, and both kinds of `ERR` have the one meaning. -/
theorem reservedTokenKindIsAReadFailure : Obligations.ReservedTokenKindIsAReadFailure :=
  ⟨fun _ => rfl, fun _ _ _ => rfl⟩

/-- Settles O23: the reading of a token word in either phase acts as the token it stands for. -/
theorem recordFormsActAsTheirLastToken : Obligations.RecordFormsActAsTheirLastToken := by
  intro s t
  refine ⟨fun h => ?_, fun h => ?_⟩
  · rw [← readToken_of_dCnt h, exec_readToken s t s rfl rfl, exec_decodeTok]
  · rw [← readToken_of_dVal h, exec_readToken s t s rfl rfl, exec_decodeTok]

theorem busy_eq_decide (s : State) : busy s = decide (s.ctlSt = .cEnc ∨ s.ctlSt = .cDec) := by
  unfold busy
  cases s.ctlSt <;> rfl

theorem done_eq_decide (s : State) : done s = decide (s.ctlSt = .cDone) := by
  unfold done
  cases s.ctlSt <;> rfl

/-- The two flags are never both 1 (R34). -/
theorem busy_and_done (s : State) : (busy s && done s) = false := by
  unfold busy done
  cases s.ctlSt <;> rfl

/-- Settles O29: a status word has no effect, and its fields are the flags and the code it is made of. -/
theorem statusWordReportsControl : Obligations.StatusWordReportsControl := by
  intro s h
  obtain ⟨hbusy, hdone, hcode⟩ := status_fields (busy s) (done s) s.ctlOutcome.code
  exact ⟨fun _ _ _ => inPhase_self h, hbusy.trans (busy_eq_decide s), hdone.trans (done_eq_decide s),
    hcode, (congrArg₂ (· && ·) hbusy hdone).trans (busy_and_done s)⟩

end Sys2Proof.Machine
end

section
/-!
SUPPORT. The encodings among the streams: the round trip (R187), `encode` of equal bytes (R108), and which
streams are encodings (R105).
-/

namespace Sys2Proof.Machine

/-! ### Decoding an encoding (R187) -/

/-- The run a record stands for, in front of what the next record starts at. -/
theorem rep_append_drop_runlen (v : Byte) (T : Stream) {n : Nat} (h1 : 1 ≤ n)
    (h2 : n ≤ 1 + runlen v T) : rep v n ++ T.drop (n - 1) = v :: T := by
  obtain ⟨m, rfl⟩ : ∃ m, n = m + 1 := ⟨n - 1, by omega⟩
  rw [Nat.add_sub_cancel, rep, ← take_eq_rep v T m (by omega), List.cons_append, List.take_append_drop]

/-- The count byte of an encoded record, as a number: no wrap (R95, R140). -/
theorem toNat_count (n : Nat) : (BitVec.ofNat 8 (min 255 n)).toNat = min 255 n :=
  Nat.mod_eq_of_lt (by omega)

theorem decodeStream_encodeStream (S : Stream) : decodeStream (encodeStream S) = S := by
  induction S using encodeStream_induction with
  | nil => rfl
  | cons v T ih =>
    rw [encodeStream_cons, decodeStream, ih, toNat_count]
    exact rep_append_drop_runlen v T (by omega) (by omega)

/-! ### Equal bytes (R108) -/

/-- A run of at least 255 copies gives up a full record (R140). -/
theorem encodeStream_rep_add (v : Byte) (m : Nat) :
    encodeStream (rep v (255 + m)) = 255#8 :: v :: encodeStream (rep v m) := by
  have hrun : min 255 (1 + runlen v (rep v (254 + m))) = 255 := by rw [runlen_rep]; omega
  have hdrop : (rep v (254 + m)).drop 254 = rep v m := by
    rw [rep_add, List.drop_left' (rep_length v 254)]
  rw [show 255 + m = (254 + m) + 1 by omega, rep, encodeStream_cons, hrun, hdrop]

theorem repRecords_add (v : Byte) (m : Nat) :
    repRecords v (255 + m) = 255#8 :: v :: repRecords v m := by
  have hdiv : (255 + m) / 255 = m / 255 + 1 := by omega
  have hmod : (255 + m) % 255 = m % 255 := by omega
  rw [repRecords, hdiv, hmod, List.replicate_succ]
  rfl

/-- Less than 255 copies are one record, or none (R140). -/
theorem encodeStream_rep_of_lt (v : Byte) {n : Nat} (h : n < 255) :
    encodeStream (rep v n) = repRecords v n := by
  have hdiv : n / 255 = 0 := by omega
  have hmod : n % 255 = n := Nat.mod_eq_of_lt h
  rw [repRecords, hdiv, hmod]
  by_cases h0 : n = 0
  · subst h0
    rfl
  · rw [if_neg h0, encodeStream_rep v (by omega) (by omega)]
    rfl

/-- Settles O47, by induction on the number of copies, 255 at a time. -/
theorem repIsTheEncodingOfARun : Obligations.RepIsTheEncodingOfARun := by
  intro v n
  induction n using Nat.strong_induction_on with
  | h n ih =>
    by_cases hn : n < 255
    · exact encodeStream_rep_of_lt v hn
    · obtain ⟨m, rfl⟩ : ∃ m, n = 255 + m := ⟨n - 255, by omega⟩
      rw [encodeStream_rep_add, repRecords_add, ih m (by omega)]

/-! ### Which streams are encodings (R105) -/

/-- Every record of an encoding has a count of at least 1 (R162 (b)). -/
theorem wellFormed_encodeStream (S : Stream) : wellFormed (encodeStream S) := by
  refine ⟨encodeStream_even S, ?_⟩
  induction S using encodeStream_induction with
  | nil => simp [records]
  | cons v T ih =>
    rw [encodeStream_cons, records]
    refine List.forall_mem_cons.2 ⟨fun h0 => ?_, ih⟩
    have hcount := congrArg BitVec.toNat h0
    rw [toNat_count] at hcount
    simp at hcount

/-- The byte a record below the cap stops at differs from its value (R140). -/
theorem head_drop_of_lt_cap {v : Byte} {T : Stream} (h : min 255 (1 + runlen v T) ≠ 255) :
    (T.drop (min 255 (1 + runlen v T) - 1)).head? ≠ some v := by
  rw [show min 255 (1 + runlen v T) - 1 = runlen v T by omega]
  exact head_drop_runlen v T

/-- Records of one value in a row are full but for the last (R162 (d)). -/
theorem maximalRuns_encodeStream (S : Stream) : maximalRuns (records (encodeStream S)) := by
  induction S using encodeStream_induction with
  | nil => trivial
  | cons v T ih =>
    rw [encodeStream_cons, records]
    have hhead := head_drop_of_lt_cap (v := v) (T := T)
    revert ih hhead
    cases T.drop (min 255 (1 + runlen v T) - 1) with
    | nil => exact fun _ _ => trivial
    | cons u R =>
      intro ih hhead
      rw [encodeStream_cons, records] at ih ⊢
      refine ⟨fun huv => ?_, ih⟩
      by_contra hcount
      exact hhead (fun hcap => hcount (by rw [hcap])) (congrArg some huv.symm)

/-- A count other than zero, as a number, is a legal length of a run (R95). -/
theorem encodeStream_rep_toNat {c : Byte} (v : Byte) (h : c ≠ 0#8) :
    encodeStream (rep v c.toNat) = [c, v] := by
  have hpos : 1 ≤ c.toNat := Nat.pos_of_ne_zero fun h0 => h (BitVec.eq_of_toNat_eq h0)
  rw [encodeStream_rep v hpos (by omega), BitVec.ofNat_toNat, BitVec.setWidth_eq]

/-- What a record expands to ends at a boundary of any other value, and of its own if it is full. -/
theorem atBoundary_rep {c v u : Byte} (h0 : c ≠ 0#8) (h : v = u → c = 255#8) :
    atBoundary (rep v c.toNat) u := by
  by_cases huv : v = u
  · refine .inr (.inr ?_)
    rw [encodeStream_rep_toNat v h0, h huv]
    rfl
  · refine .inr (.inl ?_)
    rw [rep_eq_replicate, List.getLast?_replicate]
    split_ifs <;> simp [huv]

/-- The expansion of a record that may stand before an encoding is encoded as that record (R105). -/
theorem encodeStream_rep_append {c v : Byte} (X : Stream) (h0 : c ≠ 0#8)
    (h : maximalRuns ((c, v) :: records (encodeStream X))) :
    encodeStream (rep v c.toNat ++ X) = c :: v :: encodeStream X := by
  cases X with
  | nil => rw [List.append_nil, encodeStream_rep_toNat v h0, encodeStream_nil]
  | cons u R =>
    have hfull : v = u → c = 255#8 := by
      rw [encodeStream_cons, records] at h
      exact h.1
    rw [encodeStream_append_of_atBoundary (atBoundary_rep h0 hfull), encodeStream_rep_toNat v h0]
    rfl

theorem wellFormed_cons {c v : Byte} {D : Stream} :
    wellFormed (c :: v :: D) ↔ c ≠ 0#8 ∧ wellFormed D := by
  have hlen : (D.length + 1 + 1) % 2 = D.length % 2 := by omega
  simp only [wellFormed, records, List.forall_mem_cons, List.length_cons, hlen]
  exact and_left_comm

theorem maximalRuns_tail {r : Byte × Byte} {rs : List (Byte × Byte)} (h : maximalRuns (r :: rs)) :
    maximalRuns rs := by
  cases rs with
  | nil => trivial
  | cons r' rs => exact h.2

/-- On a well-formed stream with maximal runs `encode` inverts `decode` (R105, R187). -/
theorem encodeStream_decodeStream {C : Stream} (hwf : wellFormed C)
    (hmax : maximalRuns (records C)) : encodeStream (decodeStream C) = C := by
  induction C using records.induct with
  | case1 => rfl
  | case2 b => exact absurd hwf.1 (by simp)
  | case3 c v D ih =>
    obtain ⟨hc, hD⟩ := wellFormed_cons.1 hwf
    have hrest : encodeStream (decodeStream D) = D := ih hD (maximalRuns_tail hmax)
    rw [decodeStream, encodeStream_rep_append _ hc (by rwa [hrest]), hrest]

/-- Settles O45: an encoding is well-formed with maximal runs, and such a stream is the encoding of what
it decodes to; the second equivalence is the round trip. -/
theorem canonicalStreamsAreTheEncodings : Obligations.CanonicalStreamsAreTheEncodings := by
  refine fun C => ⟨⟨?_, fun ⟨hwf, hmax⟩ => ⟨_, (encodeStream_decodeStream hwf hmax).symm⟩⟩,
    fun h => ⟨_, h.symm⟩, ?_⟩
  · rintro ⟨S, rfl⟩
    exact ⟨wellFormed_encodeStream S, maximalRuns_encodeStream S⟩
  · rintro ⟨S, rfl⟩
    rw [decodeStream_encodeStream]

end Sys2Proof.Machine
end

section
/-!
SUPPORT. The encoder's part of the functions and invariants: the recursion of `encode` (R140), the sizes of
an encoding (R163), the split at a boundary (R162 (f)) and the invariant along every step (R160).
-/

namespace Sys2Proof.Machine

/-- Settles O46, by `encodeStream_append_of_atBoundary`: induction over the records of `encode(S)`. -/
theorem encodeSplitsAtABoundary : Obligations.EncodeSplitsAtABoundary :=
  fun _ T _ h => encodeStream_append_of_atBoundary h T

/-- Settles O50, by the effects of the six kinds of steps on the invariant (`encoderInv_step`). -/
theorem stepKeepsTheEncoderInvariant : Obligations.StepKeepsTheEncoderInvariant :=
  fun _ _ => encoderInv_step

/-- Settles O43: the two equations of the recursion. -/
theorem encodeFollowsItsRecursion : Obligations.EncodeFollowsItsRecursion :=
  ⟨encodeStream_nil, encodeStream_cons⟩

/-! ### The sizes of an encoding (R163) -/

/-- A record takes at least one byte of the stream, and no more than there are. -/
theorem length_drop_run (v : Byte) (T : Stream) :
    (T.drop (min 255 (1 + runlen v T) - 1)).length + min 255 (1 + runlen v T) = T.length + 1 := by
  have hrun := runlen_le_length v T
  rw [List.length_drop]
  omega

theorem length_encodeStream_cons (v : Byte) (T : Stream) :
    (encodeStream (v :: T)).length =
      (encodeStream (T.drop (min 255 (1 + runlen v T) - 1))).length + 2 := by
  rw [encodeStream_cons, List.length_cons, List.length_cons]

theorem length_encodeStream_le (S : Stream) : (encodeStream S).length ≤ 2 * S.length := by
  induction S using encodeStream_induction with
  | nil => simp
  | cons v T ih =>
    have hdrop := length_drop_run v T
    rw [length_encodeStream_cons, List.length_cons]
    omega

theorem le_length_encodeStream (S : Stream) :
    2 * ((S.length + 254) / 255) ≤ (encodeStream S).length := by
  induction S using encodeStream_induction with
  | nil => simp
  | cons v T ih =>
    have hdrop := length_drop_run v T
    rw [length_encodeStream_cons, List.length_cons]
    omega

/-- Only a byte that differs from the next one takes a record of its own. -/
theorem length_encodeStream_eq_iff (S : Stream) :
    (encodeStream S).length = 2 * S.length ↔ S.IsChain (· ≠ ·) := by
  induction S with
  | nil => simp
  | cons v T ih =>
    cases T with
    | nil => simp [encodeStream_cons]
    | cons u R =>
      rw [List.isChain_cons_cons, ← ih]
      by_cases huv : u = v
      · have hle := length_encodeStream_le ((u :: R).drop (min 255 (1 + runlen v (u :: R)) - 1))
        have hlen := length_drop_run v (u :: R)
        have hrun : runlen v (u :: R) = 1 + runlen v R := if_pos huv
        have hshort : (encodeStream (v :: u :: R)).length ≠ 2 * (v :: u :: R).length := by
          rw [length_encodeStream_cons, List.length_cons (a := v)]
          omega
        exact iff_of_false hshort fun h => h.1 huv.symm
      · have hrun : runlen v (u :: R) = 0 := if_neg huv
        have hcons : (encodeStream (v :: u :: R)).length = (encodeStream (u :: R)).length + 2 := by
          rw [length_encodeStream_cons, hrun]
          rfl
        rw [hcons, List.length_cons (a := v)]
        exact ⟨fun h => ⟨Ne.symm huv, by omega⟩, fun h => by omega⟩

theorem length_encodeStream_rep (v : Byte) (n : Nat) :
    (encodeStream (rep v n)).length = 2 * ((n + 254) / 255) := by
  rw [repIsTheEncodingOfARun v n, repRecords]
  by_cases h : n % 255 = 0
  · simp [h]
    omega
  · simp [h]
    omega

/-- Settles O48: each bound along the recursion of `encode`, and the encoding of a run by its records. -/
theorem encodingSizes : Obligations.EncodingSizes :=
  ⟨fun S => ⟨length_encodeStream_le S, length_encodeStream_eq_iff S, le_length_encodeStream S⟩,
    length_encodeStream_rep⟩

end Sys2Proof.Machine
end

section
/-!
SUPPORT. The step rules of the encoder, an equation for each row of R142: what a token, an answer of the
sink and a step without an access do in each phase; and the statements on single steps that follow (R143
to R159).
-/

namespace Sys2Proof.Machine

/-! ### What a token does in an encoder phase (R143 to R154) -/

section
variable {s : State}

theorem takeToken_eFirst_data (h : s.phase = some .eFirst) (b : Byte) :
    takeToken (.data b) s = openRun b s := by simp [takeToken, h]

theorem takeToken_eFirst_eos (h : s.phase = some .eFirst) :
    takeToken .eos s = finish .okEmpty s := by simp [takeToken, h]

theorem takeToken_eFirst_err (h : s.phase = some .eFirst) :
    takeToken .err s = finish .errRead s := by simp [takeToken, h]

theorem takeToken_eHead_data (h : s.phase = some .eHead) (hv : s.encPendV = false) (b : Byte) :
    takeToken (.data b) s = openRun b s := by simp [takeToken, h, hv]

theorem takeToken_eHead_eos (h : s.phase = some .eHead) (hv : s.encPendV = false) :
    takeToken .eos s = finish .ok s := by simp [takeToken, h, hv]

theorem takeToken_eHead_err (h : s.phase = some .eHead) (hv : s.encPendV = false) :
    takeToken .err s = finish .errRead s := by simp [takeToken, h, hv]

theorem takeToken_eScan (h : s.phase = some .eScan) (hc : atCap s.encCnt = false) (t : Token) :
    takeToken t s = scanToken t s := by simp [takeToken, h, hc]

theorem takeToken_eScan_same (h : s.phase = some .eScan) (hc : atCap s.encCnt = false) {b : Byte}
    (hb : b = s.encVal) : takeToken (.data b) s = { s with encCnt := inc s.encCnt } := by
  simp [takeToken_eScan h hc, scanToken, byteEq, hb]

theorem takeToken_eScan_other (h : s.phase = some .eScan) (hc : atCap s.encCnt = false) {b : Byte}
    (hb : b ≠ s.encVal) :
    takeToken (.data b) s = closeRun { s with encPendV := true, encPendB := b } := by
  simp [takeToken_eScan h hc, scanToken, byteEq, hb]

/-! ### What an answer of the sink does in an encoder phase (R155 to R159) -/

theorem answerOk_eEmitC (h : s.phase = some .eEmitC) (hc : lenOk s.encCnt.toNat = true) :
    answerOk s = { acknowledge (narrow8 s.encCnt) s with encSt := .eEmitV } := by
  simp [answerOk, h, hc]

theorem answerOk_eEmitV_eos (h : s.phase = some .eEmitV) (hf : s.encFin = .fEos) :
    answerOk s = finish .ok (acknowledge s.encVal s) := by simp [answerOk, h, afterPair, hf]

theorem answerOk_eEmitV_err (h : s.phase = some .eEmitV) (hf : s.encFin = .fErr) :
    answerOk s = finish .errRead (acknowledge s.encVal s) := by simp [answerOk, h, afterPair, hf]

theorem answerOk_eEmitV_none (h : s.phase = some .eEmitV) (hf : s.encFin = .fNone) :
    answerOk s = { acknowledge s.encVal s with encSt := .eHead } := by
  simp [answerOk, h, afterPair, hf]

theorem snkValid_eEmitC (h : s.phase = some .eEmitC) (hc : lenOk s.encCnt.toNat = true) :
    snkValid s = true := by simp [snkValid, h, hc]

theorem snkValid_eEmitV (h : s.phase = some .eEmitV) : snkValid s = true := by simp [snkValid, h]

theorem answerFail_of_snkValid (h : snkValid s = true) : answerFail s = finish .errWrite s := by
  rw [answerFail_eq, if_pos h]

/-! ### The steps without an access (R146, R150, R157) -/

theorem internalStep_eHead (h : s.phase = some .eHead) (hv : s.encPendV = true) :
    internalStep s = { openRun s.encPendB s with encPendV := false } := by
  simp [internalStep, h, hv]

theorem internalStep_eScan (h : s.phase = some .eScan) (hc : atCap s.encCnt = true) :
    internalStep s = closeRun s := by simp [internalStep, h, hc]

theorem internalStep_eEmitC (h : s.phase = some .eEmitC) (hc : lenOk s.encCnt.toNat = false) :
    internalStep s = finish .faultBounds s := by simp [internalStep, h, hc]

theorem access_eHead_pending (h : s.phase = some .eHead) (hv : s.encPendV = true) :
    access s = some .internal := by simp [access, h, hv]

theorem access_eScan_atCap (h : s.phase = some .eScan) (hc : atCap s.encCnt = true) :
    access s = some .internal := by simp [access, h, hc]

theorem access_eEmitC_refused (h : s.phase = some .eEmitC) (hc : lenOk s.encCnt.toNat = false) :
    access s = some .internal := by simp [access, h, hc]

/-! ### The step at a port, as the transfer it makes -/

/-- A core that asks for a token and is offered one takes it (R66). -/
theorem step_of_token (hr : s.rst = false) (h : srcReady s = true) {w : TokWord} {ws : List TokWord}
    (hh : s.srcRest = w :: ws) :
    step s = .next (takeToken (TokWord.token w) (deliver w ws (clearPulse s))) := by
  rw [step_of_source hr h hh, exec_readToken s w (deliver w ws (clearPulse s)) rfl rfl, inPhase_next]
  exact ⟨phase_of_access ((access_source s).2 h), rfl⟩

/-- A core that offers a byte and is answered `OK` goes on. -/
theorem step_of_ok (hr : s.rst = false) (h : snkValid s = true) {as : List WrespWord}
    (hh : s.snkAns = 0#1 :: as) : step s = .next (answerOk (answered as (clearPulse s))) := by
  rw [step_of_sink hr h hh, exec_decodeWresp, inPhase_next]
  exact ⟨phase_of_access ((access_sink s).2 h), rfl⟩

/-- A core that offers a byte and is answered `FAIL` ends the operation (R226). -/
theorem step_of_fail (hr : s.rst = false) (h : snkValid s = true) {as : List WrespWord}
    (hh : s.snkAns = 1#1 :: as) :
    step s = .next (finish .errWrite (answered as (clearPulse s))) := by
  rw [step_of_sink hr h hh, exec_decodeWresp, inPhase_next]
  exact ⟨phase_of_access ((access_sink s).2 h), answerFail_of_snkValid h⟩

theorem step_of_internal (hr : s.rst = false) (h : access s = some .internal) :
    step s = .next (internalStep (clearPulse s)) := by
  simp [step, fetch, hr, h]

/-- Ending an encode operation leaves the decoder idle as it was (R206). -/
theorem finish_of_decIdle (h : s.decSt = .dIdle) (o : OpOutcome) :
    finish o s = { s with ctlOutcome := o, ctlSt := .cDone, encSt := .eIdle } := by
  rw [finish, ← h]

end

/-! ### Single steps of an encode operation -/

/-- Settles O11: the rows of `E_FIRST`. -/
theorem firstTokenOpensARunOrEnds : Obligations.FirstTokenOpensARunOrEnds := by
  intro s b i h
  obtain ⟨-, -, hd⟩ := (phase_eq_eFirst s).1 h
  have hexec := inPhase_of_phase h
  refine ⟨(hexec _).trans ?_, (hexec _).trans ?_, (hexec _).trans ?_, (hexec _).trans ?_⟩
  · rw [takeToken_eFirst_data h]
    rfl
  · rw [takeToken_eFirst_eos h, finish_of_decIdle hd]
  · rw [takeToken_eFirst_err h, finish_of_decIdle hd]
  · rw [takeToken_eFirst_err h, finish_of_decIdle hd]

/-- Settles O12: the rows of `E_HEAD` with an empty slot. -/
theorem headTokenOpensARunOrEnds : Obligations.HeadTokenOpensARunOrEnds := by
  intro s b i h hv
  obtain ⟨-, -, hd⟩ := (phase_eq_eHead s).1 h
  have hexec := inPhase_of_phase h
  refine ⟨(hexec _).trans ?_, (hexec _).trans ?_, (hexec _).trans ?_, (hexec _).trans ?_⟩
  · rw [takeToken_eHead_data h hv]
    rfl
  · rw [takeToken_eHead_eos h hv, finish_of_decIdle hd]
  · rw [takeToken_eHead_err h hv, finish_of_decIdle hd]
  · rw [takeToken_eHead_err h hv, finish_of_decIdle hd]

/-- Settles O13: the row of `E_SCAN` for an equal byte, and `inc` on its domain. -/
theorem equalByteIsCountedWithoutWrap : Obligations.EqualByteIsCountedWithoutWrap := by
  intro s h h1 h2
  have hcap : atCap s.encCnt = false := by
    rw [Bool.eq_false_iff, ne_eq, atCap_iff]
    omega
  have hinc : (inc s.encCnt).toNat = s.encCnt.toNat + 1 := inc_toNat _ h1 h2
  refine ⟨_, (inPhase_of_phase h _).trans (congrArg _ (takeToken_eScan_same h hcap rfl)), rfl, hinc, ?_⟩
  rw [lenOk_iff, hinc]
  omega

/-- Settles O14: the rows of `E_SCAN` that close the run. -/
theorem differentByteOrEndClosesTheRun : Obligations.DifferentByteOrEndClosesTheRun := by
  intro s b i h hcap
  have hexec := inPhase_of_phase h
  refine ⟨fun hb => (hexec _).trans ?_, (hexec _).trans ?_, (hexec _).trans ?_, (hexec _).trans ?_⟩
  · rw [takeToken_eScan_other h hcap hb]
    rfl
  all_goals
    rw [takeToken_eScan h hcap]
    rfl

/-- Settles O24: the answers in `E_EMITC`. -/
theorem countByteIsWrittenOrTheOperationFails : Obligations.CountByteIsWrittenOrTheOperationFails := by
  intro s h hc
  obtain ⟨-, -, hd⟩ := (phase_eq_eEmitC s).1 h
  refine ⟨(inPhase_of_phase h _).trans ?_, (inPhase_of_phase h _).trans ?_⟩
  · rw [answerOk_eEmitC h hc]
    rfl
  · rw [answerFail_of_snkValid (snkValid_eEmitC h hc), finish_of_decIdle hd]

/-- Settles O25: the answers in `E_EMITV`, the answer `OK` by what `ENC.fin` recorded. -/
theorem valueByteIsWrittenAndTheRunEnds : Obligations.ValueByteIsWrittenAndTheRunEnds := by
  intro s h
  obtain ⟨-, -, hd⟩ := (phase_eq_eEmitV s).1 h
  have hexec := inPhase_of_phase h
  refine ⟨fun hf => (hexec _).trans ?_, fun hf => (hexec _).trans ?_, fun hf => (hexec _).trans ?_,
    (hexec _).trans ?_⟩
  · rw [answerOk_eEmitV_eos h hf, finish_of_decIdle (s := acknowledge s.encVal s) hd]
    rfl
  · rw [answerOk_eEmitV_err h hf, finish_of_decIdle (s := acknowledge s.encVal s) hd]
    rfl
  · rw [answerOk_eEmitV_none h hf]
    rfl
  · rw [answerFail_of_snkValid (snkValid_eEmitV h), finish_of_decIdle hd]

/-- Settles O27: each of the three step rules without an access. -/
theorem stepsWithoutAnAccess : Obligations.StepsWithoutAnAccess := by
  intro s hr
  refine ⟨fun h hv => ?_, fun h hcnt => ?_, fun h hc => ?_⟩
  · rw [step_of_internal hr (access_eHead_pending h hv), internalStep_eHead (s := clearPulse s) h hv]
    rfl
  · have hcap : atCap s.encCnt = true := by rw [hcnt]; rfl
    rw [step_of_internal hr (access_eScan_atCap h hcap), internalStep_eScan (s := clearPulse s) h hcap]
    rfl
  · obtain ⟨-, -, hd⟩ := (phase_eq_eEmitC s).1 h
    rw [step_of_internal hr (access_eEmitC_refused h hc),
      internalStep_eEmitC (s := clearPulse s) h hc, finish_of_decIdle (s := clearPulse s) hd]
    rfl

end Sys2Proof.Machine
end

section
/-!
SUPPORT. A whole encode operation (R161, R163): what holds of a core in the course of one, for a given
source `(S, term)` and given answers of the sink; that each step of it advances or ends the operation; and
the two statements on whole operations that follow.
-/

namespace Sys2Proof.Machine

/-! ### The end of the source (R61) -/

/-- What `ENC.fin` records of a terminal (R153, R154). -/
def Terminal.inputEnd : Terminal → InputEnd
  | .eos => .fEos
  | .err => .fErr

/-- The outcome of an operation at whose terminal nothing is left to write: `o`, unless the source
failed (R144, R145, R148, R149, R158). -/
def Terminal.outcome (o : OpOutcome) : Terminal → OpOutcome
  | .eos => o
  | .err => .errRead

theorem Terminal.inputEnd_ne (term : Terminal) : term.inputEnd ≠ .fNone := by cases term <;> decide

theorem Terminal.outcome_eq_ite (o : OpOutcome) (term : Terminal) :
    term.outcome o = if term = .err then .errRead else o := by cases term <;> rfl

@[simp] theorem token_terminal_word (term : Terminal) : TokWord.token term.word = term.token := by
  cases term <;> rfl

@[simp] theorem token_data_word (b : Byte) : TokWord.token (0b00#2 ++ b) = .data b := by
  obtain ⟨hk, hd⟩ := tok_fields 0b00#2 b
  rw [TokWord.token, hk, hd, if_pos rfl]

theorem sourceWords_cons (b : Byte) (R : Stream) (term : Terminal) :
    sourceWords (b :: R) term = (0b00#2 ++ b) :: sourceWords R term := rfl

@[simp] theorem length_sourceWords (R : Stream) (term : Terminal) :
    (sourceWords R term).length = R.length + 1 := by simp [sourceWords]

theorem filterMap_tokenByte_data (P : Stream) : (P.map Token.data).filterMap tokenByte = P := by
  induction P with
  | nil => rfl
  | cons b P ih => simp [tokenByte, ih]

theorem filterMap_tokenByte_sourceTokens (S : Stream) (term : Terminal) :
    (sourceTokens S term).filterMap tokenByte = S := by
  rw [sourceTokens, List.filterMap_append, filterMap_tokenByte_data]
  cases term <;> simp [Terminal.token, tokenByte]

/-! ### The rows of R142 for a terminal of either kind -/

/-- Where nothing is left to write a terminal ends the operation. -/
theorem takeToken_eFirst_terminal {s : State} (h : s.phase = some .eFirst) (term : Terminal) :
    takeToken term.token s = finish (term.outcome .okEmpty) s := by
  cases term with
  | eos => exact takeToken_eFirst_eos h
  | err => exact takeToken_eFirst_err h

theorem takeToken_eHead_terminal {s : State} (h : s.phase = some .eHead) (hv : s.encPendV = false)
    (term : Terminal) : takeToken term.token s = finish (term.outcome .ok) s := by
  cases term with
  | eos => exact takeToken_eHead_eos h hv
  | err => exact takeToken_eHead_err h hv

theorem takeToken_eScan_terminal {s : State} (h : s.phase = some .eScan)
    (hc : atCap s.encCnt = false) (term : Terminal) :
    takeToken term.token s = closeRun { s with encFin := term.inputEnd } := by
  rw [takeToken_eScan h hc]
  cases term <;> rfl

theorem answerOk_eEmitV_terminal {s : State} (h : s.phase = some .eEmitV) {term : Terminal}
    (hf : s.encFin = term.inputEnd) :
    answerOk s = finish (term.outcome .ok) (acknowledge s.encVal s) := by
  cases term with
  | eos => exact answerOk_eEmitV_eos h hf
  | err => exact answerOk_eEmitV_err h hf

/-! ### Answers of the sink (R64) -/

/-- One more `OK` at the end is one more at the front. -/
theorem oks_succ_append (n : Nat) (as : List WrespWord) :
    oks (n + 1) ++ as = oks n ++ 0#1 :: as := by
  rw [oks, List.replicate_succ', List.append_assoc]
  rfl

theorem oks_cancel {n : Nat} {as bs : List WrespWord} (h : oks n ++ as = oks n ++ bs) : as = bs :=
  List.append_cancel_left h

/-- A `FAIL` stands behind all the answers `OK` in front. -/
theorem le_of_oks_append_fail {m n : Nat} {as bs : List WrespWord}
    (h : oks m ++ 1#1 :: as = oks n ++ bs) : n ≤ m := by
  by_contra hlt
  have hm := congrArg (·[m]?) h
  simp [oks, List.getElem?_append, Nat.lt_of_not_le hlt] at hm

/-! ### What is written of an encoding while a run is being written (R160, R162 (f)) -/

/-- The split at a boundary, for a rest that may be empty. -/
theorem encodeStream_append {Q R : Stream} (h : ∀ u ∈ R.head?, atBoundary Q u) :
    encodeStream (Q ++ R) = encodeStream Q ++ encodeStream R := by
  cases R with
  | nil => simp
  | cons u R => exact encodeStream_append_of_atBoundary (h u rfl) R

/-- While a run is being written `O` is a part of `encode(S)`, and what follows is the rest of the run's
record: it was closed where `encode` closes it. -/
theorem EmitInv.encodeStream_eq {s : State} {written rest R : Stream} (h : EmitInv written s)
    (hw : written ++ rest = [narrow8 s.encCnt, s.encVal]) (hR : s.encFin ≠ .fNone → R = []) :
    encodeStream (consumedBytes s ++ R) =
      s.out ++ rest ++ encodeStream ((if s.encPendV then [s.encPendB] else []) ++ R) := by
  obtain ⟨h1, h2, hclosed, P, hP, hat, ho⟩ := h
  have hrun : encodeStream (P ++ rep s.encVal s.encCnt.toNat) = s.out ++ rest := by
    rw [encodeStream_append_rep hat h1 h2, ho, List.append_assoc, hw, narrow8_eq_ofNat]
  rw [hP, List.append_assoc, encodeStream_append, hrun]
  intro u hu
  rcases hclosed with ⟨hv, hb, -⟩ | ⟨hv, hf⟩ | ⟨-, -, hcnt⟩
  · obtain rfl : s.encPendB = u := by simpa [hv] using hu
    refine .inr (.inl ?_)
    rw [rep_eq_replicate, List.getLast?_append, List.getLast?_replicate, if_neg (by omega)]
    exact fun he => hb (Option.some.inj he).symm
  · simp [hv, hR hf] at hu
  · refine .inr (.inr ?_)
    rw [encodeStream_append_rep hat h1 h2, hcnt]
    exact lastCount_encodeStream_append P _ _

/-! ### A core in the course of an encode operation -/

/-- The source `(S, term)` has delivered a part of `S`, and nothing of it ended the input. -/
def StillReading (S : Stream) (term : Terminal) (s : State) : Prop :=
  s.encFin = .fNone ∧
  ∃ P R, S = P ++ R ∧ s.srcSeen = P.map Token.data ∧ s.srcRest = sourceWords R term

/-- The source `(S, term)` has delivered all of its tokens, and `ENC.fin` tells which the last was. -/
def InputEnded (S : Stream) (term : Terminal) (s : State) : Prop :=
  s.encFin = term.inputEnd ∧ s.srcSeen = sourceTokens S term ∧ s.srcRest = []

/-- A core that encodes `(S, term)`, for whose writes the sink had the answers `A` and after which the
host offers the commands `ls`: the invariant of R160, the ports, and that every answer so far was `OK`. -/
structure Encoding (S : Stream) (term : Terminal) (A : List WrespWord) (ls : List Launch)
    (s : State) : Prop where
  enc : s.ctlSt = .cEnc
  legal : s.phase ≠ none
  rst : s.rst = false
  host : s.host = ls
  warnLog : s.warnLog = []
  inv : EncoderInv s
  source : StillReading S term s ∨ InputEnded S term s
  answers : oks s.out.length ++ s.snkAns = A

/-- The whole encoding is written (R161). -/
structure Written (S : Stream) (term : Terminal) (A : List WrespWord) (t : State) : Prop where
  out : t.out = encodeStream S
  srcSeen : t.srcSeen = sourceTokens S term
  srcRest : t.srcRest = []
  outcome : t.ctlOutcome = term.outcome (if S = [] then .okEmpty else .ok)
  answers : oks t.out.length ++ t.snkAns = A

/-- A byte of the encoding was refused, all those before it are written (R161, R64). -/
structure Refused (S : Stream) (A : List WrespWord) (t : State) : Prop where
  out : ∃ b X, encodeStream S = t.out ++ b :: X
  outcome : t.ctlOutcome = .errWrite
  answers : oks t.out.length ++ 1#1 :: t.snkAns = A

/-- The end of an encode operation, one way or the other. -/
structure Encoded (S : Stream) (term : Terminal) (A : List WrespWord) (ls : List Launch)
    (t : State) : Prop where
  done : t.phase = some .done
  host : t.host = ls
  warnLog : t.warnLog = []
  result : Written S term A t ∨ Refused S A t

/-- The steps the encoder takes from a state of `ENC.st` to the next token, or to its end, with a slot that
is empty; in `E_SCAN` this counts the closing of the run at the cap. -/
def stepsOfEncSt : EncSt → Nat
  | .eIdle => 0
  | .eFirst => 1
  | .eHead => 1
  | .eScan => 4
  | .eEmitC => 3
  | .eEmitV => 2

/-- A bound on the steps an encode operation still takes: five for each byte still to be read, four for a
byte in the slot, and those of the run in progress. -/
def stepsLeft (s : State) : Nat :=
  5 * (s.srcRest.length - 1) + 4 * s.encPendV.toNat + stepsOfEncSt s.encSt

/-- A step of an encode operation: it ends the operation, or brings the end nearer. -/
def Advances (S : Stream) (term : Terminal) (A : List WrespWord) (ls : List Launch)
    (s t : State) : Prop :=
  (Encoding S term A ls t ∧ stepsLeft t < stepsLeft s) ∨ Encoded S term A ls t

section
variable {S : Stream} {term : Terminal} {A : List WrespWord} {ls : List Launch} {s t : State}

/-- What a source that has still to end delivers next: a byte, or its terminal. -/
theorem StillReading.next_token (h : StillReading S term s) :
    (∃ (b : Byte) (ws : List TokWord), s.srcRest = (0b00#2 ++ b) :: ws ∧ 0 < ws.length ∧
      StillReading S term (deliver (0b00#2 ++ b) ws s)) ∨
    (s.srcRest = [term.word] ∧ consumedBytes s = S ∧
      (deliver term.word [] s).srcSeen = sourceTokens S term) := by
  obtain ⟨hf, P, R, rfl, hseen, hrest⟩ := h
  cases R with
  | nil =>
    refine .inr ⟨hrest, ?_, ?_⟩
    · rw [consumedBytes, hseen, filterMap_tokenByte_data, List.append_nil]
    · rw [deliver_srcSeen, hseen, token_terminal_word, List.append_nil, sourceTokens]
  | cons b R =>
    refine .inl ⟨b, sourceWords R term, hrest, by simp, hf, P ++ [b], R, by simp, ?_, rfl⟩
    rw [deliver_srcSeen, hseen, token_data_word, List.map_append]
    rfl

/-- The bytes of `S` still to come; there are none once the input has ended. -/
theorem Encoding.exists_rest (h : Encoding S term A ls s) :
    ∃ R, S = consumedBytes s ++ R ∧ (s.encFin ≠ .fNone → R = []) := by
  rcases h.source with ⟨hf, P, R, hS, hseen, -⟩ | ⟨-, hseen, -⟩
  · refine ⟨R, ?_, fun hne => absurd hf hne⟩
    rw [consumedBytes, hseen, filterMap_tokenByte_data, hS]
  · refine ⟨[], ?_, fun _ => rfl⟩
    rw [consumedBytes, hseen, filterMap_tokenByte_sourceTokens, List.append_nil]

theorem Encoding.stillReading (h : Encoding S term A ls s) (hf : s.encFin = .fNone) :
    StillReading S term s :=
  h.source.resolve_right fun hend => term.inputEnd_ne (hend.1.symm.trans hf)

theorem Encoding.inputEnded (h : Encoding S term A ls s) (hf : s.encFin ≠ .fNone) :
    InputEnded S term s :=
  h.source.resolve_left fun hread => hf hread.1

/-- A step that does not end the operation, from what it does to the ports. -/
theorem Encoding.next (h : Encoding S term A ls s) (hstep : step s = .next t)
    (henc : t.ctlSt = .cEnc) (hrst : t.rst = false) (hhost : t.host = ls) (hwarn : t.warnLog = [])
    (hsource : StillReading S term t ∨ InputEnded S term t)
    (hanswers : oks t.out.length ++ t.snkAns = A) : Encoding S term A ls t := by
  obtain ⟨t', ht', hlegal⟩ := step_answers h.legal
  obtain rfl : t = t' := Host.Outcome.next.inj (hstep.symm.trans ht')
  exact ⟨henc, hlegal, hrst, hhost, hwarn, encoderInv_step h.inv hstep, hsource, hanswers⟩

/-! ### The steps that read (R143 to R154) -/

/-- A token that is a byte opens a run, and a terminal ends the operation, where all that was consumed
is written. -/
theorem Encoding.advance_of_opening (h : Encoding S term A ls s) (hrdy : srcReady s = true)
    (he : stepsOfEncSt s.encSt = 1) (hv : s.encPendV = false) (hf : s.encFin = .fNone)
    (ho : s.out = encodeStream (consumedBytes s))
    (hdata : ∀ b w ws, takeToken (.data b) (deliver w ws (clearPulse s)) =
      openRun b (deliver w ws (clearPulse s)))
    (hend : ∀ w ws, takeToken term.token (deliver w ws (clearPulse s)) =
      finish (term.outcome (if consumedBytes s = [] then .okEmpty else .ok))
        (deliver w ws (clearPulse s))) :
    ∃ t, step s = .next t ∧ Advances S term A ls s t := by
  rcases (h.stillReading hf).next_token with ⟨b, ws, hrest, hlen, hread⟩ | ⟨hrest, rfl, hseen⟩
  · have hstep := step_of_token h.rst hrdy hrest
    rw [token_data_word, hdata] at hstep
    refine ⟨_, hstep, .inl ⟨h.next hstep h.enc h.rst h.host h.warnLog (.inl hread) h.answers, ?_⟩⟩
    have hscan : stepsOfEncSt .eScan = 4 := rfl
    simp [stepsLeft, hscan, he, hv, hrest]
    omega
  · have hstep := step_of_token h.rst hrdy hrest
    rw [token_terminal_word, hend] at hstep
    exact ⟨_, hstep, .inr ⟨by simp, h.host, h.warnLog, .inl ⟨ho, hseen, rfl, rfl, h.answers⟩⟩⟩

theorem Encoding.advance_eFirst (h : Encoding S term A ls s) (hp : s.phase = some .eFirst) :
    ∃ t, step s = .next t ∧ Advances S term A ls s t := by
  obtain ⟨hnil, ho, hv, hf⟩ := (encoderInv_eFirst hp).1 h.inv
  obtain ⟨-, he, -⟩ := (phase_eq_eFirst s).1 hp
  refine h.advance_of_opening (by simp [srcReady, hp]) (by rw [he]; rfl) hv hf
    (by rw [ho, hnil, encodeStream_nil])
    (fun b w ws => takeToken_eFirst_data (s := deliver w ws (clearPulse s)) hp b) fun w ws => ?_
  rw [if_pos hnil]
  exact takeToken_eFirst_terminal (s := deliver w ws (clearPulse s)) hp term

/-- The byte in the slot opens the next run (R146). -/
theorem Encoding.advance_eHead_pending (h : Encoding S term A ls s) (hp : s.phase = some .eHead)
    (hv : s.encPendV = true) : ∃ t, step s = .next t ∧ Advances S term A ls s t := by
  obtain ⟨hf, -, -⟩ := (encoderInv_eHead hp).1 h.inv
  obtain ⟨-, he, -⟩ := (phase_eq_eHead s).1 hp
  have hstep := step_of_internal h.rst (access_eHead_pending hp hv)
  rw [internalStep_eHead (s := clearPulse s) hp hv] at hstep
  exact ⟨_, hstep, .inl ⟨h.next hstep h.enc h.rst h.host h.warnLog (.inl (h.stillReading hf)) h.answers,
    by simp [stepsLeft, stepsOfEncSt, he, hv]⟩⟩

theorem Encoding.advance_eHead (h : Encoding S term A ls s) (hp : s.phase = some .eHead) :
    ∃ t, step s = .next t ∧ Advances S term A ls s t := by
  cases hv : s.encPendV with
  | true => exact h.advance_eHead_pending hp hv
  | false =>
    obtain ⟨hf, hempty, -⟩ := (encoderInv_eHead hp).1 h.inv
    obtain ⟨hne, ho, -⟩ := hempty hv
    obtain ⟨-, he, -⟩ := (phase_eq_eHead s).1 hp
    refine h.advance_of_opening (by simp [srcReady, hp, hv]) (by rw [he]; rfl) hv hf ho
      (fun b w ws => takeToken_eHead_data (s := deliver w ws (clearPulse s)) hp hv b) fun w ws => ?_
    rw [if_neg hne]
    exact takeToken_eHead_terminal (s := deliver w ws (clearPulse s)) hp hv term

/-- At the cap the run is closed (R150). -/
theorem Encoding.advance_eScan_atCap (h : Encoding S term A ls s) (hp : s.phase = some .eScan)
    (hcap : atCap s.encCnt = true) : ∃ t, step s = .next t ∧ Advances S term A ls s t := by
  obtain ⟨-, -, hv, hf, -⟩ := (encoderInv_eScan hp).1 h.inv
  obtain ⟨-, he, -⟩ := (phase_eq_eScan s).1 hp
  have hstep := step_of_internal h.rst (access_eScan_atCap hp hcap)
  rw [internalStep_eScan (s := clearPulse s) hp hcap] at hstep
  exact ⟨_, hstep, .inl ⟨h.next hstep h.enc h.rst h.host h.warnLog (.inl (h.stillReading hf)) h.answers,
    by simp [stepsLeft, stepsOfEncSt, he, hv]⟩⟩

theorem Encoding.advance_eScan (h : Encoding S term A ls s) (hp : s.phase = some .eScan) :
    ∃ t, step s = .next t ∧ Advances S term A ls s t := by
  cases hcap : atCap s.encCnt with
  | true => exact h.advance_eScan_atCap hp hcap
  | false =>
    obtain ⟨-, -, hv, hf, -⟩ := (encoderInv_eScan hp).1 h.inv
    obtain ⟨-, he, -⟩ := (phase_eq_eScan s).1 hp
    have hrdy : srcReady s = true := by simp [srcReady, hp, hcap]
    rcases (h.stillReading hf).next_token with ⟨b, ws, hrest, hlen, hread⟩ | ⟨hrest, -, hseen⟩
    · have hstep := step_of_token h.rst hrdy hrest
      rw [token_data_word] at hstep
      by_cases hb : b = s.encVal
      · rw [takeToken_eScan_same (s := deliver _ ws (clearPulse s)) hp hcap hb] at hstep
        refine ⟨_, hstep, .inl ⟨h.next hstep h.enc h.rst h.host h.warnLog (.inl hread) h.answers, ?_⟩⟩
        simp [stepsLeft, stepsOfEncSt, he, hv, hrest]
        omega
      · rw [takeToken_eScan_other (s := deliver _ ws (clearPulse s)) hp hcap hb] at hstep
        refine ⟨_, hstep, .inl ⟨h.next hstep h.enc h.rst h.host h.warnLog (.inl hread) h.answers, ?_⟩⟩
        simp [stepsLeft, stepsOfEncSt, he, hv, hrest]
        omega
    · have hstep := step_of_token h.rst hrdy hrest
      rw [token_terminal_word,
        takeToken_eScan_terminal (s := deliver _ [] (clearPulse s)) hp hcap] at hstep
      exact ⟨_, hstep, .inl ⟨h.next hstep h.enc h.rst h.host h.warnLog (.inr ⟨rfl, hseen, rfl⟩)
        h.answers, by simp [stepsLeft, stepsOfEncSt, he, hv, hrest]⟩⟩

/-! ### The steps that write (R155 to R159) -/

/-- Where the byte offered is the next of the encoding, a sink that has an answer refuses it, which ends
the operation, or takes it. -/
theorem Encoding.refused_or_ok (h : Encoding S term A ls s) (hval : snkValid s = true) {b : Byte}
    {X : Stream} (hb : encodeStream S = s.out ++ b :: X)
    (hA : ∀ n < (encodeStream S).length, oks n ≠ A) :
    (∃ t, step s = .next t ∧ Encoded S term A ls t) ∨
    ∃ as, step s = .next (answerOk (answered as (clearPulse s))) ∧
      oks (s.out.length + 1) ++ as = A := by
  have hanswers := h.answers
  cases has : s.snkAns with
  | nil =>
    rw [has, List.append_nil] at hanswers
    exact absurd hanswers (hA _ (by simp [hb]))
  | cons a as =>
    rw [has] at hanswers
    rcases (by decide : ∀ a : WrespWord, a = 0#1 ∨ a = 1#1) a with rfl | rfl
    · exact .inr ⟨as, step_of_ok h.rst hval has, by rw [oks_succ_append, hanswers]⟩
    · exact .inl ⟨_, step_of_fail h.rst hval has, by simp, h.host, h.warnLog,
        .inr ⟨⟨b, X, hb⟩, rfl, hanswers⟩⟩

theorem Encoding.advance_eEmitC (h : Encoding S term A ls s) (hp : s.phase = some .eEmitC)
    (hA : ∀ n < (encodeStream S).length, oks n ≠ A) :
    ∃ t, step s = .next t ∧ Advances S term A ls s t := by
  have hemit := (encoderInv_eEmitC hp).1 h.inv
  obtain ⟨-, he, -⟩ := (phase_eq_eEmitC s).1 hp
  have hc : lenOk s.encCnt.toNat = true := (lenOk_iff _).2 ⟨hemit.1, hemit.2.1⟩
  obtain ⟨R, hS, hR⟩ := h.exists_rest
  have hb := hemit.encodeStream_eq (List.nil_append _) hR
  rw [← hS, List.append_assoc] at hb
  rcases h.refused_or_ok (snkValid_eEmitC hp hc) hb hA with ⟨t, hstep, hend⟩ | ⟨as, hstep, hans⟩
  · exact ⟨t, hstep, .inr hend⟩
  · rw [answerOk_eEmitC (s := answered as (clearPulse s)) hp hc] at hstep
    exact ⟨_, hstep, .inl ⟨h.next hstep h.enc h.rst h.host h.warnLog h.source (by simpa using hans),
      by simp [stepsLeft, stepsOfEncSt, he]⟩⟩

theorem Encoding.advance_eEmitV (h : Encoding S term A ls s) (hp : s.phase = some .eEmitV)
    (hA : ∀ n < (encodeStream S).length, oks n ≠ A) :
    ∃ t, step s = .next t ∧ Advances S term A ls s t := by
  have hemit := (encoderInv_eEmitV hp).1 h.inv
  obtain ⟨-, he, -⟩ := (phase_eq_eEmitV s).1 hp
  obtain ⟨R, hS, hR⟩ := h.exists_rest
  have hb := hemit.encodeStream_eq (rest := [s.encVal]) rfl hR
  rw [← hS, List.append_assoc] at hb
  rcases h.refused_or_ok (snkValid_eEmitV hp) hb hA with ⟨t, hstep, hend⟩ | ⟨as, hstep, hans⟩
  · exact ⟨t, hstep, .inr hend⟩
  · have hans' : oks (s.out ++ [s.encVal]).length ++ as = A := by simpa using hans
    by_cases hf : s.encFin = .fNone
    · rw [answerOk_eEmitV_none (s := answered as (clearPulse s)) hp hf] at hstep
      exact ⟨_, hstep, .inl ⟨h.next hstep h.enc h.rst h.host h.warnLog h.source hans',
        by simp [stepsLeft, stepsOfEncSt, he]⟩⟩
    · obtain ⟨hfin, hseen, hrest⟩ := h.inputEnded hf
      rw [answerOk_eEmitV_terminal (s := answered as (clearPulse s)) hp hfin] at hstep
      have hne : S ≠ [] := by
        rintro rfl
        simp at hb
      have hv : s.encPendV = false := by
        obtain ⟨-, -, hclosed, -⟩ := hemit
        rcases hclosed with ⟨-, -, hnone⟩ | ⟨hv, -⟩ | ⟨hv, -⟩
        · exact absurd hnone hf
        · exact hv
        · exact hv
      have hout : s.out ++ [s.encVal] = encodeStream S := by simp [hb, hv, hR hf]
      exact ⟨_, hstep, .inr ⟨by simp, h.host, h.warnLog,
        .inl ⟨hout, hseen, hrest, by rw [if_neg hne]; rfl, hans'⟩⟩⟩

/-! ### The whole operation -/

/-- With a sink that does not run out of answers every step advances. -/
theorem Encoding.advance (h : Encoding S term A ls s)
    (hA : ∀ n < (encodeStream S).length, oks n ≠ A) :
    ∃ t, step s = .next t ∧ Advances S term A ls s t := by
  rcases phase_of_enc h.legal h.enc with hp | hp | hp | hp | hp
  · exact h.advance_eFirst hp
  · exact h.advance_eHead hp
  · exact h.advance_eScan hp
  · exact h.advance_eEmitC hp hA
  · exact h.advance_eEmitV hp hA

theorem Encoding.stepsLeft_pos (h : Encoding S term A ls s) : 0 < stepsLeft s := by
  refine Nat.add_pos_right _ ?_
  rcases phase_of_enc h.legal h.enc with hp | hp | hp | hp | hp
  · simp [((phase_eq_eFirst s).1 hp).2.1, stepsOfEncSt]
  · simp [((phase_eq_eHead s).1 hp).2.1, stepsOfEncSt]
  · simp [((phase_eq_eScan s).1 hp).2.1, stepsOfEncSt]
  · simp [((phase_eq_eEmitC s).1 hp).2.1, stepsOfEncSt]
  · simp [((phase_eq_eEmitV s).1 hp).2.1, stepsOfEncSt]

/-- An encode operation ends within the steps left to it. -/
theorem Encoding.ends (h : Encoding S term A ls s)
    (hA : ∀ n < (encodeStream S).length, oks n ≠ A) {m : Nat} (hm : stepsLeft s ≤ m) :
    ∃ n t, n ≤ m ∧ runSteps n s = .next t ∧ Encoded S term A ls t := by
  induction m generalizing s with
  | zero => exact absurd h.stepsLeft_pos (by omega)
  | succ m ih =>
    obtain ⟨u, hstep, ⟨hu, hlt⟩ | hend⟩ := h.advance hA
    · obtain ⟨n, t, hn, hrun, ht⟩ := ih hu (by omega)
      exact ⟨n + 1, t, by omega, by rw [runSteps_succ n hstep, hrun], ht⟩
    · exact ⟨1, u, by omega, by rw [runSteps_succ 0 hstep]; rfl, hend⟩

/-- A ready core takes the command `ENCODE` (R204). -/
theorem step_of_encode (hready : Ready s) (hr : s.rst = false) {src : List TokWord}
    {snk : List WrespWord} (hh : s.host = { cmd := 0b0111#4, src := src, snk := snk } :: ls) :
    step s = .next (startEncode
      (attach { cmd := 0b0111#4, src := src, snk := snk } ls (clearPulse s))) := by
  have hdecode : decodeCmd 0b0111#4 = .encode := by decide
  have hexec : ∀ r : State, exec .encode r = onCommand startEncode r := fun _ => rfl
  have hp : s.phase ≠ none := by rcases hready with hp | hp <;> simp [hp]
  rw [step_of_command hr hready hh, hdecode, hexec, onCommand, inPhase_next]
  exact ⟨hp, if_pos (cmdReady_of_ready hready)⟩

theorem encoding_startEncode (hready : Ready s) (hr : s.rst = false) :
    Encoding S term A ls (startEncode
      (attach { cmd := 0b0111#4, src := sourceWords S term, snk := A } ls (clearPulse s))) where
  enc := rfl
  legal := by
    rw [startEncode_phase (s := attach _ ls (clearPulse s)) hready]
    simp
  rst := hr
  host := rfl
  warnLog := rfl
  inv := CommandEffect.startsEncoder.encoderInv (s := attach _ ls (clearPulse s)) hready
  source := .inl ⟨rfl, [], S, rfl, rfl, rfl⟩
  answers := rfl

/-- An encode operation ends within `5 |S| + 2` steps, written or refused, if the sink does not run out of
answers before the encoding is written. -/
theorem encode_operation_ends (hready : Ready s) (hr : s.rst = false)
    (hh : s.host = { cmd := 0b0111#4, src := sourceWords S term, snk := A } :: ls)
    (hA : ∀ n < (encodeStream S).length, oks n ≠ A) :
    ∃ n t, n ≤ 5 * S.length + 2 ∧ runSteps n s = .next t ∧ Encoded S term A ls t := by
  have hstart : Encoding S term A ls _ := encoding_startEncode hready hr
  obtain ⟨n, t, hn, hrun, ht⟩ := hstart.ends hA (m := 5 * S.length + 1) (by simp [stepsLeft, stepsOfEncSt])
  exact ⟨n + 1, t, by omega, by rw [runSteps_succ n (step_of_encode hready hr hh), hrun], ht⟩

end

/-- Settles O55: the operation ends (`encode_operation_ends`), and not at a refused write, since the
answers up to the length of the encoding are `OK`. -/
theorem encodeOperationWritesTheEncoding : Obligations.EncodeOperationWritesTheEncoding := by
  intro s S term rest ls hready hr hh
  have hA : ∀ n < (encodeStream S).length, oks n ≠ oks (encodeStream S).length ++ rest := by
    intro n hn he
    have hlen := congrArg List.length he
    simp [oks] at hlen
    omega
  obtain ⟨n, t, hn, hrun, ⟨hdone, hhost, hwarn, hwritten | hrefused⟩⟩ :=
    encode_operation_ends hready hr hh hA
  · have hans := hwritten.answers
    rw [hwritten.out] at hans
    exact ⟨n, t, hn, hrun, hdone, hwritten.out, hwarn, hwritten.srcSeen, hwritten.srcRest,
      oks_cancel hans, hhost, hwritten.outcome.trans (Terminal.outcome_eq_ite _ term)⟩
  · obtain ⟨b, X, hout⟩ := hrefused.out
    have hle := le_of_oks_append_fail hrefused.answers
    simp [hout] at hle

/-- Settles O56: the operation ends (`encode_operation_ends`), and at the first answer `FAIL`. -/
theorem encodeOperationStopsAtARefusedWrite : Obligations.EncodeOperationStopsAtARefusedWrite := by
  intro s S term k rest ls hready hr hk hh
  have hA : ∀ n < (encodeStream S).length, oks n ≠ oks k ++ 1#1 :: rest := by
    intro n _ he
    have hle : n ≤ k := le_of_oks_append_fail (bs := []) (by rw [List.append_nil, he])
    have hlen := congrArg List.length he
    simp [oks] at hlen
    omega
  obtain ⟨n, t, hn, hrun, ⟨hdone, hhost, hwarn, hwritten | hrefused⟩⟩ :=
    encode_operation_ends hready hr hh hA
  · have hle := le_of_oks_append_fail hwritten.answers.symm
    rw [hwritten.out] at hle
    omega
  · obtain ⟨b, X, hout⟩ := hrefused.out
    have hans := hrefused.answers
    have hlen : t.out.length = k :=
      le_antisymm (le_of_oks_append_fail hans.symm) (le_of_oks_append_fail hans)
    rw [hlen] at hans
    refine ⟨n, t, hn, hrun, hdone, ?_, hwarn, (List.cons.inj (oks_cancel hans)).2, hhost,
      hrefused.outcome⟩
    rw [hout, ← hlen, List.take_left]

end Sys2Proof.Machine
end

section
/-!
SUPPORT. The step rules of the decoder, an equation for each row of R172: what a token and an answer of the
sink do in each phase; the statements on single steps and on a whole `RUN` record that follow (R173 to
R181); the decoder's invariant along every step (R182) and the round trip of the functions (R187).
-/

namespace Sys2Proof.Machine

/-! ### The functions and the invariant -/

/-- A stream whose records all have a count of at least 1 raises no warning (R105, R170). -/
theorem zeroCounts_of_wellFormed {C : Stream} (h : wellFormed C) : zeroCounts C = 0 := by
  induction C using records.induct with
  | case1 => rfl
  | case2 b => rfl
  | case3 c v D ih =>
    obtain ⟨hc, hD⟩ := wellFormed_cons.1 h
    rw [zeroCounts, if_neg hc, ih hD]

theorem zeroCounts_encodeStream (S : Stream) : zeroCounts (encodeStream S) = 0 :=
  zeroCounts_of_wellFormed (wellFormed_encodeStream S)

/-- Settles O44: the round trip by induction over the runs of `S`, and an encoding is well-formed. -/
theorem decodeInvertsEncode : Obligations.DecodeInvertsEncode :=
  fun S => ⟨decodeStream_encodeStream S, zeroCounts_encodeStream S⟩

/-- Settles O51, by the effects of the six kinds of steps on the invariant (`decoderInv_step`). -/
theorem stepKeepsTheDecoderInvariant : Obligations.StepKeepsTheDecoderInvariant :=
  fun _ _ => decoderInv_step

section
variable {s : State}

/-! ### What a token does in a decoder phase (R173 to R179) -/

theorem takeToken_dCnt_data (h : s.phase = some .dCnt) (b : Byte) :
    takeToken (.data b) s = { s with decCnt := b, decSt := .dVal } := by simp [takeToken, h]

theorem takeToken_dCnt_eos (h : s.phase = some .dCnt) : takeToken .eos s = finish .ok s := by
  simp [takeToken, h]

theorem takeToken_dCnt_err (h : s.phase = some .dCnt) : takeToken .err s = finish .errRead s := by
  simp [takeToken, h]

theorem takeToken_dVal_zero (h : s.phase = some .dVal) (hz : s.decCnt = 0#8) (b : Byte) :
    takeToken (.data b) s = { raiseWarning .zeroCount s with decVal := b, decSt := .dCnt } := by
  simp [takeToken, h, valueToken, isZero, hz]

theorem takeToken_dVal_run (h : s.phase = some .dVal) (hz : s.decCnt ≠ 0#8) (b : Byte) :
    takeToken (.data b) s = { s with decVal := b, decSt := .dExp } := by
  simp [takeToken, h, valueToken, isZero, hz]

theorem takeToken_dVal_eos (h : s.phase = some .dVal) : takeToken .eos s = finish .ok s := by
  simp [takeToken, h, valueToken]

theorem takeToken_dVal_err (h : s.phase = some .dVal) :
    takeToken .err s = finish .endTruncated (raiseWarning .truncated s) := by
  simp [takeToken, h, valueToken]

/-! ### What an answer of the sink does in `D_EXP` (R180, R181) -/

theorem snkValid_dExp (h : s.phase = some .dExp) : snkValid s = true := by simp [snkValid, h]

theorem answerOk_dExp (h : s.phase = some .dExp) :
    answerOk s = countOff (acknowledge s.decVal s) := by simp [answerOk, h]

/-- The last copy leads back to a record boundary. -/
theorem countOff_last (h : dec s.decCnt = 0#8) :
    countOff s = { s with decCnt := 0#8, decSt := .dCnt } := by simp [countOff, h]

/-- Any other copy leaves the expansion going on. -/
theorem countOff_more (h : dec s.decCnt ≠ 0#8) : countOff s = { s with decCnt := dec s.decCnt } := by
  simp [countOff, h]

/-- A copy acknowledged `OK` is appended and counted off. -/
theorem step_of_copy (h : s.phase = some .dExp) (hr : s.rst = false) {as : List WrespWord}
    (hh : s.snkAns = 0#1 :: as) :
    step s = .next (countOff (acknowledge s.decVal (answered as (clearPulse s)))) := by
  rw [step_of_ok hr (snkValid_dExp h) hh, answerOk_dExp (s := answered as (clearPulse s)) h]
  rfl

/-! ### Where a record form is taken (R96) -/

theorem onRecord_taken (h : s.phase = some .dVal) {c : Byte} (hc : s.decCnt = c) (t : Token) :
    onRecord c t s = .next (takeToken t s) := by
  rw [onRecord, if_pos ⟨h, hc⟩, inPhase_of_phase h]

theorem onBoundary_taken (h : s.phase = some .dCnt) (t : Token) :
    onBoundary t s = .next (takeToken t s) := by
  rw [onBoundary, if_pos h, inPhase_of_phase h]

/-- Ending a decode operation leaves the encoder idle as it was (R206). -/
theorem finish_of_encIdle (h : s.encSt = .eIdle) (o : OpOutcome) :
    finish o s = { s with ctlOutcome := o, ctlSt := .cDone, decSt := .dIdle } := by
  rw [finish, ← h]

end

/-! ### Single steps of a decode operation -/

/-- Settles O16: the row of `D_CNT` for a byte. -/
theorem countByteIsLatchedWhateverItsValue : Obligations.CountByteIsLatchedWhateverItsValue :=
  fun _ b h => (inPhase_of_phase h _).trans (congrArg _ (takeToken_dCnt_data h b))

/-- Settles O17: the row of `D_VAL` for a byte after a zero count. -/
theorem zeroCountRecordIsSkippedWithOneWarning :
    Obligations.ZeroCountRecordIsSkippedWithOneWarning :=
  fun _ v h hz => (onRecord_taken h hz _).trans (congrArg _ (takeToken_dVal_zero h hz v))

theorem exec_run {s : State} {c : Byte} (h : s.phase = some .dVal) (hc : s.decCnt = c) (hz : c ≠ 0#8)
    (v : Byte) : exec (.run c v) s = .next { s with decVal := v, decSt := .dExp } :=
  (onRecord_taken h hc _).trans (congrArg _ (takeToken_dVal_run h (hc ▸ hz) v))

/-- Settles O18: the row of `D_VAL` for a byte after any other count. -/
theorem runRecordOpensTheExpansion : Obligations.RunRecordOpensTheExpansion :=
  fun _ _ v h hc hz => exec_run h hc hz v

/-- Settles O20: the rows of `D_CNT` for the two terminals. -/
theorem terminalAtABoundaryEndsTheDecoder : Obligations.TerminalAtABoundaryEndsTheDecoder := by
  intro s i j h
  obtain ⟨-, he, -⟩ := (phase_eq_dCnt s).1 h
  refine ⟨(onBoundary_taken h _).trans ?_, (onBoundary_taken h _).trans ?_⟩
  · rw [takeToken_dCnt_eos h, finish_of_encIdle he]
  · rw [takeToken_dCnt_err h, finish_of_encIdle he]

/-- Settles O21: the row of `D_VAL` for the end of the stream. -/
theorem loneTrailingByteIsDroppedSilently : Obligations.LoneTrailingByteIsDroppedSilently := by
  intro s c i h hc
  obtain ⟨-, he, -⟩ := (phase_eq_dVal s).1 h
  refine (onRecord_taken h hc _).trans ?_
  rw [takeToken_dVal_eos h, finish_of_encIdle he]

/-- Settles O22: the row of `D_VAL` for a read failure. -/
theorem brokenRecordWarnsAndEndsTruncated : Obligations.BrokenRecordWarnsAndEndsTruncated := by
  intro s c i h hc
  obtain ⟨-, he, -⟩ := (phase_eq_dVal s).1 h
  refine (onRecord_taken h hc _).trans ?_
  rw [takeToken_dVal_err h, finish_of_encIdle (s := raiseWarning .truncated s) he]
  rfl

/-- Settles O26: the answers in `D_EXP`, the answer `OK` by whether the copy was the last. -/
theorem expandedByteIsCountedOff : Obligations.ExpandedByteIsCountedOff := by
  intro s h hz
  obtain ⟨-, he, -⟩ := (phase_eq_dExp s).1 h
  have hdec : dec s.decCnt = s.decCnt - 1#8 := if_neg hz
  refine ⟨fun h1 => (inPhase_of_phase h _).trans ?_, fun h1 => (inPhase_of_phase h _).trans ?_,
    (inPhase_of_phase h _).trans ?_⟩
  · have hlast : dec s.decCnt = 0#8 := by rw [h1]; decide
    rw [answerOk_dExp h, countOff_last (s := acknowledge s.decVal s) hlast]
    rfl
  · have hmore : dec s.decCnt ≠ 0#8 := by rw [hdec]; bv_omega
    rw [answerOk_dExp h, countOff_more (s := acknowledge s.decVal s) hmore, ← hdec]
    rfl
  · rw [answerFail_of_snkValid (snkValid_dExp h), finish_of_encIdle he]

/-! ### The expansion of a `RUN` record (R176, R180, R181) -/

/-- `s` with one copy written and counted off, and the answers `as` still to come (R180). -/
def copyWritten (as : List WrespWord) (s : State) : State :=
  { s with decCnt := dec s.decCnt, out := s.out ++ [s.decVal], snkAns := as, warnPulse := none }

/-- With more than one copy to go an answer `OK` writes one of them. -/
theorem step_of_copy_more {s : State} (h : s.phase = some .dExp) (hr : s.rst = false)
    (hcnt : 2 ≤ s.decCnt.toNat) {as : List WrespWord} (hh : s.snkAns = 0#1 :: as) :
    step s = .next (copyWritten as s) := by
  have hmore : dec s.decCnt ≠ 0#8 := by
    intro h0
    have hdec := dec_toNat s.decCnt fun hz => by simp [hz] at hcnt
    simp [h0] at hdec
    omega
  rw [step_of_copy h hr hh, countOff_more (s := acknowledge s.decVal (answered as (clearPulse s))) hmore]
  rfl

/-- As many answers `OK` as there are copies to go write them all and lead to a record boundary. -/
theorem run_of_copies {n : Nat} {s : State} {as : List WrespWord} (h : s.phase = some .dExp)
    (hr : s.rst = false) (hcnt : s.decCnt.toNat = n + 1) (hh : s.snkAns = oks (n + 1) ++ as) :
    runSteps (n + 1) s = .next { s with
      decCnt := 0#8, decSt := .dCnt, out := s.out ++ rep s.decVal (n + 1), snkAns := as,
      warnPulse := none } := by
  induction n generalizing s with
  | zero =>
    have hlast : dec s.decCnt = 0#8 := by
      rw [BitVec.eq_of_toNat_eq (y := 1#8) hcnt]
      decide
    rw [runSteps_succ 0 (step_of_copy h hr (as := as) hh),
      countOff_last (s := acknowledge s.decVal (answered as (clearPulse s))) hlast]
    rfl
  | succ n ih =>
    have hdec : (dec s.decCnt).toNat = n + 1 := by
      rw [dec_toNat _ fun hz => by simp [hz] at hcnt]
      omega
    have hstep := step_of_copy_more h hr (by omega) (as := oks (n + 1) ++ as) hh
    rw [runSteps_succ (n + 1) hstep, ih (s := copyWritten _ s) h hr hdec rfl]
    simp [copyWritten, rep]

/-- An answer `FAIL` to a copy ends the operation with the copies before it written. -/
theorem run_of_refused_copy {k : Nat} {s : State} {as : List WrespWord} (h : s.phase = some .dExp)
    (hr : s.rst = false) (hk : k < s.decCnt.toNat) (hh : s.snkAns = oks k ++ 1#1 :: as) :
    ∃ c, runSteps (k + 1) s = .next (finish .errWrite { s with
      decCnt := c, out := s.out ++ rep s.decVal k, snkAns := as, warnPulse := none }) := by
  induction k generalizing s with
  | zero =>
    refine ⟨s.decCnt, ?_⟩
    rw [runSteps_succ 0 (step_of_fail hr (snkValid_dExp h) (as := as) hh), rep, List.append_nil]
    rfl
  | succ k ih =>
    have hdec : (dec s.decCnt).toNat = s.decCnt.toNat - 1 :=
      dec_toNat _ fun hz => by simp [hz] at hk
    have hstep := step_of_copy_more h hr (by omega) (as := oks k ++ 1#1 :: as) hh
    obtain ⟨c, hrun⟩ := ih (s := copyWritten _ s) h hr (hdec ▸ by omega) rfl
    refine ⟨c, ?_⟩
    rw [runSteps_succ (k + 1) hstep, hrun]
    simp [copyWritten, rep]

/-- Settles O19: the value byte opens the expansion (`exec_run`), and the answers write it
(`run_of_copies`). -/
theorem runRecordWritesExactlyCountCopies : Obligations.RunRecordWritesExactlyCountCopies := by
  intro s c v rest h hc hz hr hh
  obtain ⟨n, hn⟩ : ∃ n, c.toNat = n + 1 :=
    Nat.exists_eq_succ_of_ne_zero fun h0 => hz (BitVec.eq_of_toNat_eq h0)
  obtain ⟨hctl, he, -⟩ := (phase_eq_dVal s).1 h
  refine ⟨_, exec_run h hc hz v, ?_⟩
  rw [hn] at hh ⊢
  exact run_of_copies (s := { s with decVal := v, decSt := .dExp })
    (by simp [phase_eq_dExp, hctl, he]) hr (by rw [← hn, ← hc]) hh

end Sys2Proof.Machine
end

section
/-!
SUPPORT. A whole decode operation (R183, R185): a core in the course of one, for a given source `(S, term)`
and given answers of the sink; what it does with each record; and the statements on whole operations that
follow, with the round trip in steps (R187).
-/

namespace Sys2Proof.Machine

/-! ### What every step of a run keeps -/

/-- What every step keeps holds at the end of a run. -/
theorem runSteps_keeps {p : State → Prop} (hstep : ∀ s t, p s → step s = .next t → p t) {n : Nat}
    {s t : State} (hs : p s) (h : runSteps n s = .next t) : p t := by
  induction n generalizing s with
  | zero => exact Host.Outcome.next.inj h ▸ hs
  | succ n ih =>
    obtain ⟨hnext, hfault, hrefused⟩ := run_succ Sys2Proof.core n s
    cases hu : step s with
    | next u => exact ih (hstep s u hs hu) ((hnext u hu).symm.trans h)
    | fault r => cases (hfault r hu).symm.trans h
    | refused r => cases (hrefused r hu).symm.trans h

/-- The core does not drive `rst` (R36). -/
theorem step_rst {s t : State} (hr : s.rst = false) (h : step s = .next t) : t.rst = false := by
  cases step_effect h with
  | reset hrst => simp [hr] at hrst
  | hold => exact hr
  | command _ _ l ls _ heff => cases heff <;> exact hr
  | token _ _ w ws _ heff => cases heff <;> exact hr
  | answer _ _ a as _ heff => cases heff <;> exact hr
  | internal _ _ heff => cases heff <;> exact hr

/-! ### A core in the course of a decode operation -/

/-- A core that decodes a source of which it has consumed the bytes `P`, with the bytes `R` and `term` still
to come; the sink has the answers `as` still to give and the host offers the commands `ls`. What `O` and `W`
hold is the invariant's part (R182). -/
structure Decoding (P R : Stream) (term : Terminal) (as : List WrespWord) (ls : List Launch)
    (s : State) : Prop where
  rst : s.rst = false
  host : s.host = ls
  srcSeen : s.srcSeen = P.map Token.data
  srcRest : s.srcRest = sourceWords R term
  answers : s.snkAns = as
  inv : DecoderInv s

/-- The outcome of a decode operation whose writes were all acknowledged (R174, R175, R178, R179). -/
def decodeOutcome (S : Stream) (term : Terminal) : OpOutcome :=
  if term = .eos then .ok else if S.length % 2 = 0 then .errRead else .endTruncated

/-- The warnings of a decode operation whose writes were all acknowledged (R177, R179). -/
def decodeWarnings (S : Stream) (term : Terminal) : List Warning :=
  List.replicate (zeroCounts S) .zeroCount ++
    (if term = .err ∧ S.length % 2 = 1 then [.truncated] else [])

/-- The end of a decode operation whose writes were all acknowledged (R183). -/
structure Decoded (S : Stream) (term : Terminal) (as : List WrespWord) (ls : List Launch)
    (t : State) : Prop where
  done : t.phase = some .done
  out : t.out = decodeStream S
  srcSeen : t.srcSeen = sourceTokens S term
  srcRest : t.srcRest = []
  answers : t.snkAns = as
  host : t.host = ls
  outcome : t.ctlOutcome = decodeOutcome S term
  warnLog : t.warnLog = decodeWarnings S term

/-- The end of a decode operation at a refused write, with `O` holding `out` (R64, R181, R183). -/
structure DecodeRefused (out : Stream) (as : List WrespWord) (ls : List Launch) (t : State) :
    Prop where
  done : t.phase = some .done
  out : t.out = out
  answers : t.snkAns = as
  host : t.host = ls
  outcome : t.ctlOutcome = .errWrite
  warnLog : t.warnLog = List.replicate (zeroCounts (consumedBytes t)) .zeroCount

section
variable {P R S : Stream} {c v : Byte} {term : Terminal} {as : List WrespWord} {ls : List Launch}
  {s : State}

theorem Decoding.consumedBytes_eq (h : Decoding P R term as ls s) : consumedBytes s = P := by
  rw [consumedBytes, h.srcSeen, filterMap_tokenByte_data]

/-- At a record boundary all that was consumed is decoded (R182). -/
theorem Decoding.inv_dCnt (h : Decoding P R term as ls s) (hp : s.phase = some .dCnt) :
    P.length % 2 = 0 ∧ s.out = decodeStream P ∧
      s.warnLog = List.replicate (zeroCounts P) .zeroCount := by
  simpa only [h.consumedBytes_eq] using (decoderInv_dCnt hp).1 h.inv

/-- After a count byte all that was consumed before it is decoded, and the byte itself decodes to nothing
(R182). -/
theorem Decoding.inv_dVal (h : Decoding P R term as ls s) (hp : s.phase = some .dVal) :
    P.length % 2 = 1 ∧ s.out = decodeStream P ∧
      s.warnLog = List.replicate (zeroCounts P) .zeroCount := by
  obtain ⟨Q, hQ, heven, ho, hw⟩ := (decoderInv_dVal hp).1 h.inv
  rw [← h.consumedBytes_eq, hQ, decodeStream_append heven, zeroCounts_append heven]
  exact ⟨by simp only [List.length_append, List.length_singleton]; omega, by simp [ho, decodeStream],
    by simp [hw, zeroCounts]⟩

/-- While the record `c`, `v` is expanded, `O` holds what was decoded before it and the copies counted off
(R182). -/
theorem Decoding.inv_dExp (h : Decoding (P ++ [c, v]) R term as ls s) (hp : s.phase = some .dExp) :
    s.decVal = v ∧ 1 ≤ s.decCnt.toNat ∧
      s.out = decodeStream P ++ rep v (c.toNat - s.decCnt.toNat) ∧
      s.warnLog = List.replicate (zeroCounts (consumedBytes s)) .zeroCount := by
  obtain ⟨Q, b, hQ, -, hpos, -, ho, hw⟩ := (decoderInv_dExp hp).1 h.inv
  rw [h.consumedBytes_eq] at hQ
  obtain ⟨rfl, hrec⟩ := List.append_inj' hQ rfl
  obtain ⟨rfl, rfl⟩ : c = b ∧ v = s.decVal := by simpa using hrec
  exact ⟨rfl, hpos, ho, hw⟩

/-! ### Reading (R173 to R179) -/

/-- A byte of the source is taken. -/
theorem Decoding.reads (h : Decoding P (c :: R) term as ls s) (hrdy : srcReady s = true) {t : State}
    (ht : t = takeToken (.data c) (deliver (0b00#2 ++ c) (sourceWords R term) (clearPulse s))) :
    step s = .next t ∧ Decoding (P ++ [c]) R term as ls t := by
  subst ht
  have hstep := step_of_token h.rst hrdy h.srcRest
  rw [token_data_word] at hstep
  obtain ⟨hhost, hrest, hseen, hans, -, hrst, -⟩ := takeToken_ports (.data c)
    (deliver (0b00#2 ++ c) (sourceWords R term) (clearPulse s))
  refine ⟨hstep, hrst.trans h.rst, hhost.trans h.host, hseen.trans ?_, hrest, hans.trans h.answers,
    decoderInv_step h.inv hstep⟩
  rw [deliver_srcSeen, clearPulse_srcSeen, h.srcSeen, token_data_word, List.map_append]
  rfl

/-- The count byte of a record is latched (R173). -/
theorem Decoding.reads_count (h : Decoding P (c :: R) term as ls s) (hp : s.phase = some .dCnt) :
    ∃ t, step s = .next t ∧ Decoding (P ++ [c]) R term as ls t ∧ t.phase = some .dVal ∧
      t.decCnt = c := by
  obtain ⟨hctl, he, -⟩ := (phase_eq_dCnt s).1 hp
  obtain ⟨hstep, ht⟩ := h.reads (srcReady_of_dCnt hp)
    (takeToken_dCnt_data (s := deliver _ _ (clearPulse s)) hp c).symm
  exact ⟨_, hstep, ht, by simp [phase_eq_dVal, hctl, he], rfl⟩

/-- The value byte of a record opens the expansion, unless the count is zero (R176, R177). -/
theorem Decoding.reads_value (h : Decoding P (v :: R) term as ls s) (hp : s.phase = some .dVal) :
    ∃ t, step s = .next t ∧ Decoding (P ++ [v]) R term as ls t ∧
      if s.decCnt = 0#8 then t.phase = some .dCnt
      else t.phase = some .dExp ∧ t.decCnt = s.decCnt := by
  obtain ⟨hctl, he, -⟩ := (phase_eq_dVal s).1 hp
  obtain ⟨hstep, ht⟩ := h.reads (srcReady_of_dVal hp) rfl
  refine ⟨_, hstep, ht, ?_⟩
  split_ifs with hz
  · rw [takeToken_dVal_zero (s := deliver _ _ (clearPulse s)) hp hz]
    simp [phase_eq_dCnt, hctl, he]
  · rw [takeToken_dVal_run (s := deliver _ _ (clearPulse s)) hp hz]
    simp [phase_eq_dExp, hctl, he]

/-- Both bytes of a record. -/
theorem Decoding.reads_record (h : Decoding P (c :: v :: R) term as ls s) (hp : s.phase = some .dCnt) :
    ∃ t, runSteps 2 s = .next t ∧ Decoding (P ++ [c, v]) R term as ls t ∧
      if c = 0#8 then t.phase = some .dCnt
      else t.phase = some .dExp ∧ t.decCnt = c := by
  obtain ⟨r, hr, hread, hpr, rfl⟩ := h.reads_count hp
  obtain ⟨t, ht, hread', hpt⟩ := hread.reads_value hpr
  refine ⟨t, ?_, by simpa using hread', hpt⟩
  rw [runSteps_succ 1 hr, runSteps_succ 0 ht]
  rfl

/-- A terminal that ends the operation where all that was consumed is decoded. -/
theorem Decoding.ends (h : Decoding P [] term as ls s) (hrdy : srcReady s = true)
    (ho : s.out = decodeStream P) {t : State}
    (ht : t = takeToken term.token (deliver term.word [] (clearPulse s)))
    (hdone : t.phase = some .done) (houtcome : t.ctlOutcome = decodeOutcome P term)
    (hw : t.warnLog = decodeWarnings P term) : ∃ t, step s = .next t ∧ Decoded P term as ls t := by
  subst ht
  have hstep := step_of_token h.rst hrdy h.srcRest
  rw [token_terminal_word] at hstep
  obtain ⟨hhost, hrest, hseen, hans, hout, -⟩ := takeToken_ports term.token
    (deliver term.word [] (clearPulse s))
  refine ⟨_, hstep, hdone, hout.trans ho, hseen.trans ?_, hrest, hans.trans h.answers,
    hhost.trans h.host, houtcome, hw⟩
  rw [deliver_srcSeen, clearPulse_srcSeen, h.srcSeen, token_terminal_word, sourceTokens]

/-- The terminal at a record boundary (R174, R175). -/
theorem Decoding.ends_dCnt (h : Decoding P [] term as ls s) (hp : s.phase = some .dCnt) :
    ∃ t, step s = .next t ∧ Decoded P term as ls t := by
  obtain ⟨heven, ho, hw⟩ := h.inv_dCnt hp
  have hrdy := srcReady_of_dCnt hp
  cases term with
  | eos =>
    exact h.ends hrdy ho (takeToken_dCnt_eos (s := deliver _ _ (clearPulse s)) hp).symm rfl rfl
      (by simp [decodeWarnings, hw])
  | err =>
    exact h.ends hrdy ho (takeToken_dCnt_err (s := deliver _ _ (clearPulse s)) hp).symm rfl
      (by simp [decodeOutcome, heven]) (by simp [decodeWarnings, hw, heven])

/-- The terminal after a count byte (R178, R179). -/
theorem Decoding.ends_dVal (h : Decoding P [] term as ls s) (hp : s.phase = some .dVal) :
    ∃ t, step s = .next t ∧ Decoded P term as ls t := by
  obtain ⟨hodd, ho, hw⟩ := h.inv_dVal hp
  have hrdy := srcReady_of_dVal hp
  cases term with
  | eos =>
    exact h.ends hrdy ho (takeToken_dVal_eos (s := deliver _ _ (clearPulse s)) hp).symm rfl rfl
      (by simp [decodeWarnings, hw])
  | err =>
    exact h.ends hrdy ho (takeToken_dVal_err (s := deliver _ _ (clearPulse s)) hp).symm rfl
      (by simp [decodeOutcome, hodd]) (by simp [decodeWarnings, hw, hodd])

/-! ### Writing (R180, R181) -/

/-- The copies of a record, each answered `OK`. -/
theorem Decoding.writes_copies
    (h : Decoding (P ++ [c, v]) R term (oks s.decCnt.toNat ++ as) ls s) (hp : s.phase = some .dExp) :
    ∃ t, runSteps s.decCnt.toNat s = .next t ∧ Decoding (P ++ [c, v]) R term as ls t ∧
      t.phase = some .dCnt := by
  obtain ⟨-, hpos, -, -⟩ := h.inv_dExp hp
  obtain ⟨hctl, he, -⟩ := (phase_eq_dExp s).1 hp
  obtain ⟨n, hn⟩ : ∃ n, s.decCnt.toNat = n + 1 := ⟨s.decCnt.toNat - 1, by omega⟩
  have hans := h.answers
  rw [hn] at hans ⊢
  have hrun := run_of_copies hp h.rst hn hans
  exact ⟨_, hrun, ⟨h.rst, h.host, h.srcSeen, h.srcRest, rfl,
    runSteps_keeps (fun _ _ => decoderInv_step) h.inv hrun⟩, by simp [phase_eq_dCnt, hctl, he]⟩

/-- A whole record, each of its copies answered `OK` (R96, R183). -/
theorem Decoding.takes_record (h : Decoding P (c :: v :: R) term (oks c.toNat ++ as) ls s)
    (hp : s.phase = some .dCnt) :
    ∃ t, runSteps (2 + c.toNat) s = .next t ∧ Decoding (P ++ [c, v]) R term as ls t ∧
      t.phase = some .dCnt := by
  obtain ⟨r, hrun, hread, hpr⟩ := h.reads_record hp
  rw [runSteps_add 2 c.toNat hrun]
  split_ifs at hpr with hz
  · subst hz
    exact ⟨r, rfl, hread, hpr⟩
  · obtain ⟨hpr, rfl⟩ := hpr
    exact hread.writes_copies hpr

/-- A record one of whose copies is refused (R181, R183). -/
theorem Decoding.refused_in_record {k : Nat}
    (h : Decoding P (c :: v :: R) term (oks k ++ 1#1 :: as) ls s) (hp : s.phase = some .dCnt)
    (hk : k < c.toNat) :
    ∃ t, runSteps (2 + (k + 1)) s = .next t ∧ DecodeRefused (decodeStream P ++ rep v k) as ls t := by
  obtain ⟨r, hrun, hread, hpr⟩ := h.reads_record hp
  have hz : c ≠ 0#8 := fun hz => by simp [hz] at hk
  rw [if_neg hz] at hpr
  obtain ⟨hpr, rfl⟩ := hpr
  obtain ⟨rfl, -, ho, hw⟩ := hread.inv_dExp hpr
  obtain ⟨cnt, href⟩ := run_of_refused_copy hpr hread.rst hk hread.answers
  refine ⟨_, (runSteps_add 2 (k + 1) hrun).trans href, rfl, ?_, rfl, hread.host, rfl, hw⟩
  simp [ho, rep]

/-! ### The whole operation -/

/-- `m + n` answers `OK` are `m` of them and then `n`. -/
theorem oks_add_append (m n : Nat) (as : List WrespWord) :
    oks (m + n) ++ as = oks m ++ (oks n ++ as) := by
  rw [oks, List.replicate_add, List.append_assoc]
  rfl

/-- With every write acknowledged the core takes one step for each byte it reads, one for each it writes
and one for the terminal (R183). -/
theorem Decoding.writes_all (h : Decoding P R term (oks (decodeStream R).length ++ as) ls s)
    (hp : s.phase = some .dCnt) :
    ∃ t, runSteps (R.length + (decodeStream R).length + 1) s = .next t ∧
      Decoded (P ++ R) term as ls t := by
  induction R using decodeStream.induct generalizing P s with
  | case1 =>
    obtain ⟨t, hstep, ht⟩ := h.ends_dCnt hp
    exact ⟨t, runSteps_succ 0 hstep, by rwa [List.append_nil]⟩
  | case2 c =>
    obtain ⟨r, hr, hread, hpr, -⟩ := h.reads_count hp
    obtain ⟨t, hstep, ht⟩ := hread.ends_dVal hpr
    exact ⟨t, (runSteps_succ 1 hr).trans (runSteps_succ 0 hstep), ht⟩
  | case3 c v R ih =>
    have hlen : (decodeStream (c :: v :: R)).length = c.toNat + (decodeStream R).length := by
      simp [decodeStream]
    have hsteps : (c :: v :: R).length + (decodeStream (c :: v :: R)).length + 1 =
        (2 + c.toNat) + (R.length + (decodeStream R).length + 1) := by
      simp only [hlen, List.length_cons]
      omega
    rw [hlen, oks_add_append] at h
    obtain ⟨r, hrun, hread, hpr⟩ := h.takes_record hp
    obtain ⟨t, hrun', ht⟩ := ih hread hpr
    exact ⟨t, by rw [hsteps, runSteps_add _ _ hrun, hrun'], by simpa using ht⟩

/-- A refused write ends the operation with the bytes before it written (R183). -/
theorem Decoding.refused {k : Nat} (h : Decoding P R term (oks k ++ 1#1 :: as) ls s)
    (hp : s.phase = some .dCnt) (hk : k < (decodeStream R).length) :
    ∃ n t, n ≤ R.length + (decodeStream R).length + 1 ∧ runSteps n s = .next t ∧
      DecodeRefused (decodeStream P ++ (decodeStream R).take k) as ls t := by
  induction R using decodeStream.induct generalizing P s k with
  | case1 => simp [decodeStream] at hk
  | case2 c => simp [decodeStream] at hk
  | case3 c v R ih =>
    simp only [decodeStream, List.length_append, rep_length, List.length_cons] at hk ⊢
    by_cases hc : k < c.toNat
    · obtain ⟨t, hrun, ht⟩ := h.refused_in_record hp hc
      have htake : (rep v c.toNat ++ decodeStream R).take k = rep v k := by
        rw [List.take_append_of_le_length (by simpa using hc.le), rep_eq_replicate, List.take_replicate,
          min_eq_left hc.le, rep_eq_replicate]
      exact ⟨_, t, by omega, hrun, by rwa [htake]⟩
    · obtain ⟨j, rfl⟩ : ∃ j, k = c.toNat + j := ⟨k - c.toNat, by omega⟩
      rw [oks_add_append] at h
      obtain ⟨r, hrun, hread, hpr⟩ := h.takes_record hp
      obtain ⟨n, t, hn, hrun', ht⟩ := ih hread hpr (by omega)
      have htake : (rep v c.toNat ++ decodeStream R).take (c.toNat + j) =
          rep v c.toNat ++ (decodeStream R).take j := by
        simpa using List.take_length_add_append (l₁ := rep v c.toNat) (l₂ := decodeStream R) j
      rw [decodeStream_append_record (h.inv_dCnt hp).1, List.append_assoc, ← htake] at ht
      exact ⟨_, t, by omega, (runSteps_add _ n hrun).trans hrun', ht⟩

/-- A ready core takes the command `DECODE` (R205). -/
theorem step_of_decode (hready : Ready s) (hr : s.rst = false) {src : List TokWord}
    {snk : List WrespWord} (hh : s.host = { cmd := 0b1011#4, src := src, snk := snk } :: ls) :
    step s = .next (startDecode
      (attach { cmd := 0b1011#4, src := src, snk := snk } ls (clearPulse s))) := by
  have hdecode : decodeCmd 0b1011#4 = .decode := by decide
  have hexec : ∀ r : State, exec .decode r = onCommand startDecode r := fun _ => rfl
  have hp : s.phase ≠ none := by rcases hready with hp | hp <;> simp [hp]
  rw [step_of_command hr hready hh, hdecode, hexec, onCommand, inPhase_next]
  exact ⟨hp, if_pos (cmdReady_of_ready hready)⟩

/-- A decode operation starts at a record boundary with the whole source to come. -/
theorem decoding_of_command (hready : Ready s) (hr : s.rst = false)
    (hh : s.host = { cmd := 0b1011#4, src := sourceWords S term, snk := as } :: ls) :
    ∃ r, step s = .next r ∧ Decoding [] S term as ls r ∧ r.phase = some .dCnt :=
  ⟨_, step_of_decode hready hr hh,
    ⟨hr, rfl, rfl, rfl, rfl,
      CommandEffect.startsDecoder.decoderInv (s := attach _ ls (clearPulse s)) hready⟩,
    startDecode_phase (s := attach _ ls (clearPulse s)) hready⟩

/-- A decode operation with every write acknowledged, from the command to `C_DONE` (R183). -/
theorem decode_operation_writes (hready : Ready s) (hr : s.rst = false)
    (hh : s.host = { cmd := 0b1011#4, src := sourceWords S term,
                     snk := oks (decodeStream S).length ++ as } :: ls) :
    ∃ t, runSteps (S.length + (decodeStream S).length + 2) s = .next t ∧ Decoded S term as ls t := by
  obtain ⟨r, hstep, hstart, hp⟩ := decoding_of_command hready hr hh
  obtain ⟨t, hrun, ht⟩ := hstart.writes_all hp
  exact ⟨t, (runSteps_succ _ hstep).trans hrun, ht⟩

end

/-- Settles O57: the operation is run record by record (`Decoding.writes_all`). -/
theorem decodeOperationWritesTheDecoding : Obligations.DecodeOperationWritesTheDecoding := by
  intro s S term rest ls hready hr hh
  obtain ⟨t, hrun, ht⟩ := decode_operation_writes hready hr hh
  exact ⟨_, t, rfl, hrun, ht.done, ht.out, ht.srcSeen, ht.srcRest, ht.answers, ht.host, ht.outcome,
    ht.warnLog⟩

/-- Settles O58: the records before the refused write are run whole, the one it falls in up to it
(`Decoding.refused`). -/
theorem decodeOperationStopsAtARefusedWrite : Obligations.DecodeOperationStopsAtARefusedWrite := by
  intro s S term k rest ls hready hr hk hh
  obtain ⟨r, hstep, hstart, hp⟩ := decoding_of_command hready hr hh
  obtain ⟨n, t, hn, hrun, ht⟩ := hstart.refused hp hk
  exact ⟨n + 1, t, by omega, (runSteps_succ n hstep).trans hrun, ht.done, ht.out, ht.answers, ht.host,
    ht.outcome, ht.warnLog⟩

/-- Settles O59: the encode operation (O55), then the decode operation on what it wrote, with the round
trip of the functions. -/
theorem roundTripThroughTheMachine : Obligations.RoundTripThroughTheMachine := by
  intro s S ls hready hr hh
  obtain ⟨m, t, -, hrun, hdone, hout, -, -, -, -, hhost, -⟩ :=
    encodeOperationWritesTheEncoding s S .eos [] _ hready hr (by rw [List.append_nil]; exact hh)
  have hrst : t.rst = false := runSteps_keeps (fun _ _ => step_rst) hr hrun
  obtain ⟨u, hrun', hu⟩ := decode_operation_writes (S := encodeStream S) (as := []) (.inr hdone) hrst
    (by rw [decodeStream_encodeStream, List.append_nil]; exact hhost)
  refine ⟨m, _, t, u, hrun, hdone, hout, hrun', hu.done, ?_, ?_, hu.outcome, hu.host⟩
  · rw [hu.out, decodeStream_encodeStream]
  · simp [hu.warnLog, decodeWarnings, zeroCounts_encodeStream]

end Sys2Proof.Machine
end

section
/-!
SUPPORT. The command and the status word: a ready core takes a command and a busy one holds it off (R200,
R211), with the statements on each `START` that follow (R201 to R205, R208); and the outcome from the end
of an operation to the next command (R207).
-/

namespace Sys2Proof.Machine

/-! ### A command at a ready and at a busy core -/

theorem phase_of_ready {s : State} (h : Ready s) : s.phase ≠ none := by
  rcases h with hp | hp <;> simp [hp]

/-- A ready core takes a command (R200). -/
theorem onCommand_of_ready {s : State} (h : Ready s) (f : State → State) :
    onCommand f s = .next (f s) :=
  (inPhase_next _ _ _).2 ⟨phase_of_ready h, if_pos (cmdReady_of_ready h)⟩

theorem cmdReady_of_busy {s : State} (h : busy s = true) : cmdReady s = false := by
  rw [cmdReady_eq_not_busy, h]
  rfl

/-- A busy core holds a command off (R211). -/
theorem onCommand_of_busy {s : State} (hp : s.phase ≠ none) (h : busy s = true) (f : State → State) :
    onCommand f s = .next s :=
  (inPhase_next _ _ _).2 ⟨hp, by simp [cmdReady_of_busy h]⟩

/-- A refused `START` leaves the units idle as they were (R201 to R203, R206). -/
theorem refuseStart_of_ready {s : State} (h : Ready s) (o : OpOutcome) :
    refuseStart o s =
      { s with ctlSt := .cDone, ctlOutcome := o, out := [], warnLog := [], srcSeen := [] } := by
  obtain ⟨he, hd⟩ := units_idle_of_ready h
  rw [refuseStart, finish, ← he, ← hd]
  rfl

theorem onCommand_refuseStart {s : State} (h : Ready s) (o : OpOutcome) :
    onCommand (refuseStart o) s = .next
      { s with ctlSt := .cDone, ctlOutcome := o, out := [], warnLog := [], srcSeen := [] } := by
  rw [onCommand_of_ready h, refuseStart_of_ready h]

/-- Settles O3: a ready core takes the command. -/
theorem encodeCommandStartsTheEncoder : Obligations.EncodeCommandStartsTheEncoder :=
  fun _ h => onCommand_of_ready h startEncode

/-- Settles O4: a ready core takes the command. -/
theorem decodeCommandStartsTheDecoder : Obligations.DecodeCommandStartsTheDecoder :=
  fun _ h => onCommand_of_ready h startDecode

/-- Settles O5: both invalid modes are a `START` refused with `ERR_MODE`. -/
theorem invalidModeEndsWithErrMode : Obligations.InvalidModeEndsWithErrMode :=
  fun _ _ _ h => ⟨onCommand_refuseStart h .errMode, onCommand_refuseStart h .errMode⟩

/-- Settles O6: a closed input is a `START` refused with `ERR_OPEN_IN`, in either mode. -/
theorem closedInputEndsWithErrOpenIn : Obligations.ClosedInputEndsWithErrOpenIn :=
  fun _ _ h => ⟨onCommand_refuseStart h .errOpenIn, onCommand_refuseStart h .errOpenIn⟩

/-- Settles O7: a closed output is a `START` refused with `ERR_OPEN_OUT`, in either mode. -/
theorem closedOutputEndsWithErrOpenOut : Obligations.ClosedOutputEndsWithErrOpenOut :=
  fun _ h => ⟨onCommand_refuseStart h .errOpenOut, onCommand_refuseStart h .errOpenOut⟩

/-- Settles O10: each way a `START` goes on writes `CTL.st` and the outcome, and reads neither. -/
theorem commandFromDoneActsAsFromIdle : Obligations.CommandFromDoneActsAsFromIdle := by
  intro s w h
  obtain ⟨-, he, hd⟩ := (phase_eq_done s).1 h
  have hidle : ({ s with ctlSt := .cIdle, ctlOutcome := .noOutcome } : State).phase = some .idle :=
    (phase_eq_idle _).2 ⟨rfl, he, hd⟩
  rw [exec_decodeCmd, exec_decodeCmd, onCommand_of_ready (.inr h), onCommand_of_ready (.inl hidle)]
  refine ⟨_, rfl, ?_⟩
  split_ifs <;> rfl

/-! ### A command offered to a busy core -/

/-- The step of a busy core leaves the offered commands as they are (R211). -/
theorem step_host_of_busy {s t : State} (hr : s.rst = false) (hb : busy s = true)
    (h : step s = .next t) : t.host = s.host := by
  cases step_effect h with
  | reset hrst => simp [hr] at hrst
  | hold => rfl
  | command _ hready => exact absurd (cmdReady_of_ready hready) (by simp [cmdReady_of_busy hb])
  | token _ _ w ws _ heff => cases heff <;> rfl
  | answer _ _ a as _ heff => cases heff <;> rfl
  | internal _ _ heff => cases heff <;> rfl

/-- Settles O9: the busy core does not take the command (`onCommand_of_busy`, `step_host_of_busy`), and
the done core it becomes does (`step_of_command`). -/
theorem commandIsHeldOffWhileBusy : Obligations.CommandIsHeldOffWhileBusy := by
  refine ⟨fun s w hp hb => ⟨cmdReady_of_busy hb, ?_⟩, fun _ _ => step_host_of_busy,
    fun s t l ls hr hb hh h hdone => ?_⟩
  · rw [exec_decodeCmd, onCommand_of_busy hp hb]
  · exact step_of_command (step_rst hr h) (.inr hdone) ((step_host_of_busy hr hb h).trans hh)

/-! ### The outcome and the status word (R207) -/

/-- The control register is in `C_DONE` exactly with an outcome other than `NONE`. -/
def OutcomeIffDone (s : State) : Prop := s.ctlSt = .cDone ↔ s.ctlOutcome ≠ .noOutcome

/-- In the ten phases the units are idle whenever `CTL` is in `C_DONE` (R32). -/
theorem phase_done_iff_ctlSt {s : State} (h : s.phase ≠ none) :
    s.phase = some .done ↔ s.ctlSt = .cDone := by
  refine ⟨fun hp => ((phase_eq_done s).1 hp).1, fun hc => ?_⟩
  rcases (cmdReady_of_phase h).1 (by simp [cmdReady, hc]) with hp | hp
  · simp [((phase_eq_idle s).1 hp).1] at hc
  · exact hp

theorem statusInv_iff (s : State) : StatusInv s ↔ s.phase ≠ none ∧ OutcomeIffDone s :=
  and_congr_right fun hp => by rw [phase_done_iff_ctlSt hp, OutcomeIffDone]

theorem outcomeIffDone_finish {o : OpOutcome} (ho : o ≠ .noOutcome) (s : State) :
    OutcomeIffDone (finish o s) := by simp [OutcomeIffDone, ho]

/-- A command ends the operation with an error, or starts one with the outcome `NONE` (R200). -/
theorem CommandEffect.outcomeIffDone {s u : State} (h : CommandEffect s u) : OutcomeIffDone u := by
  cases h with
  | refuses o ho =>
    have hne : o ≠ .noOutcome := by
      rintro rfl
      cases ho
    exact outcomeIffDone_finish hne _
  | startsEncoder | startsDecoder => simp [OutcomeIffDone]

theorem TokenEffect.outcomeIffDone {t : Token} {s u : State} (h : TokenEffect t s u)
    (hs : OutcomeIffDone s) : OutcomeIffDone u := by
  cases h with
  | ends o ho => exact outcomeIffDone_finish (by rcases ho with rfl | rfl | rfl <;> decide) _
  | breaksRecord => exact outcomeIffDone_finish (by decide) _
  | opensRun | countsByte | parksByte | notesEnd | latchesCount | skipsRecord | opensExpansion =>
    exact hs

theorem AnswerEffect.outcomeIffDone {s u : State} (h : AnswerEffect s u) (hs : OutcomeIffDone s) :
    OutcomeIffDone u := by
  cases h with
  | fails => exact outcomeIffDone_finish (by decide) _
  | endsInput o ho => exact outcomeIffDone_finish (by rcases ho with rfl | rfl <;> decide) _
  | writesCount | endsRun | writesCopy => exact hs

theorem InternalEffect.outcomeIffDone {s u : State} (h : InternalEffect s u) (hs : OutcomeIffDone s) :
    OutcomeIffDone u := by
  cases h with
  | takesPending | clamps => exact hs
  | refusesCount => exact outcomeIffDone_finish (by decide) _

theorem step_outcomeIffDone {s t : State} (hs : OutcomeIffDone s) (h : step s = .next t) :
    OutcomeIffDone t := by
  cases step_effect h with
  | reset => simp [takeReset, OutcomeIffDone]
  | hold => exact hs
  | command _ _ l ls _ heff => exact heff.outcomeIffDone
  | token _ _ w ws _ heff => exact heff.outcomeIffDone hs
  | answer _ _ a as _ heff => exact heff.outcomeIffDone hs
  | internal _ _ heff => exact heff.outcomeIffDone hs

/-- The status invariant is kept by every step (R207). -/
theorem statusInv_step {s t : State} (hi : StatusInv s) (h : step s = .next t) : StatusInv t := by
  obtain ⟨hp, ho⟩ := (statusInv_iff s).1 hi
  obtain ⟨u, hu, hup⟩ := step_answers hp
  obtain rfl : u = t := Host.Outcome.next.inj (hu.symm.trans h)
  exact (statusInv_iff u).2 ⟨hup, step_outcomeIffDone ho h⟩

/-- The step of a ready core that leaves the offered commands alone had none to take, so it is a hold
(R77, R200). -/
theorem step_of_ready_same_host {s t : State} (hr : s.rst = false) (hready : Ready s)
    (h : step s = .next t) (hh : t.host = s.host) : t = clearPulse s := by
  cases hhost : s.host with
  | nil =>
    obtain ⟨hhold, -⟩ := waitingForAPartnerHoldsTheState s hr
    exact Host.Outcome.next.inj (h.symm.trans (hhold hready hhost))
  | cons l ls =>
    rw [step_of_command hr hready hhost] at h
    obtain ⟨htaken, -⟩ :=
      exec_decodeCmd_ports (s := attach l ls (clearPulse s)) (cmdReady_of_ready hready) h
    rw [attach_host, hh, hhost] at htaken
    exact absurd htaken (List.cons_ne_self l ls)

/-- Settles O53: the invariant along every step (`statusInv_step`); from `C_DONE` a step that takes no
command is a hold, and an act of the environment touches no register of the core. -/
theorem stepKeepsTheStatusInvariant : Obligations.StepKeepsTheStatusInvariant := by
  refine ⟨fun _ _ => statusInv_step, fun s t hdone hr h hh => ?_, fun s e => ?_⟩
  · obtain rfl := step_of_ready_same_host hr (.inr hdone) h hh
    exact ⟨hdone, rfl, rfl⟩
  · cases e <;> exact ⟨rfl, rfl⟩

end Sys2Proof.Machine
end

section
/-!
SUPPORT. What each kind of step does to the log of warnings `W` and to the warning port (R231, R234), and
the statements of the exceptions family: the order of the checks at `START` (R237), what a warning word
does by itself (R102, R231), and the log following the pulses.
-/

namespace Sys2Proof.Machine

/-! ### Warnings along a step (R231, R234) -/

/-- The warning port and `W` show the same in both states. -/
def SameWarnings (s t : State) : Prop := t.warnPulse = s.warnPulse ∧ t.warnLog = s.warnLog

/-- The decoder, in `D_VAL`, pulses one warning in `t` and appends it to `W`. -/
def RaisesWarning (s t : State) : Prop :=
  ∃ k, t.warnPulse = some k ∧ t.warnLog = s.warnLog ++ [k] ∧ s.phase = some .dVal

/-- However a `START` goes on, it empties `W` and pulses nothing (R200). -/
theorem CommandEffect.emptiesWarnings {s u : State} (h : CommandEffect s u) :
    u.warnPulse = s.warnPulse ∧ u.warnLog = [] := by
  cases h with
  | refuses | startsEncoder | startsDecoder => exact ⟨rfl, rfl⟩

/-- The tokens that raise a warning are the value of a zero count and `ERR` after a count (R177, R179). -/
theorem TokenEffect.raises_or_sameWarnings {t : Token} {s u : State} (h : TokenEffect t s u) :
    RaisesWarning s u ∨ SameWarnings s u := by
  cases h with
  | skipsRecord _ _ hp => exact .inl ⟨.zeroCount, rfl, rfl, hp⟩
  | breaksRecord _ hp => exact .inl ⟨.truncated, rfl, rfl, hp⟩
  | ends | opensRun | countsByte | parksByte | notesEnd | latchesCount | opensExpansion =>
    exact .inr ⟨rfl, rfl⟩

theorem AnswerEffect.sameWarnings {s u : State} (h : AnswerEffect s u) : SameWarnings s u := by
  cases h with
  | fails | writesCount | endsInput | endsRun | writesCopy => exact ⟨rfl, rfl⟩

theorem InternalEffect.sameWarnings {s u : State} (h : InternalEffect s u) : SameWarnings s u := by
  cases h with
  | takesPending | clamps | refusesCount => exact ⟨rfl, rfl⟩

/-- Settles O36: a step ends the pulse before it, and then only a token in `D_VAL` raises a warning and
only a command empties `W`. -/
theorem warningsAreLoggedAsTheyPulse : Obligations.WarningsAreLoggedAsTheyPulse := by
  intro s t h
  cases step_effect h with
  | reset => exact .inr (.inl ⟨rfl, rfl⟩)
  | hold => exact .inr (.inl ⟨rfl, rfl⟩)
  | command _ hready l ls _ heff =>
    obtain ⟨hpulse, hlog⟩ := heff.emptiesWarnings
    exact .inr (.inr ⟨hpulse, hlog, cmdReady_of_ready hready⟩)
  | token _ _ w ws _ heff => exact heff.raises_or_sameWarnings.imp_right .inl
  | answer _ _ a as _ heff => exact .inr (.inl heff.sameWarnings)
  | internal _ _ heff => exact .inr (.inl heff.sameWarnings)

/-! ### The checks at `START` (R237) -/

/-- Settles O8: a ready core takes the command, and `exec_decodeCmd` makes the checks in R237's order. -/
theorem startChecksModeThenInputThenOutput : Obligations.StartChecksModeThenInputThenOutput := by
  intro s w h
  rw [exec_decodeCmd, onCommand_of_ready h]
  refine ⟨_, rfl, ?_⟩
  split_ifs
  · exact ⟨rfl, rfl, rfl, rfl⟩
  · exact ⟨rfl, rfl, rfl, rfl⟩
  · exact ⟨rfl, rfl, rfl, rfl⟩
  · exact ⟨rfl, rfl, rfl, startEncode_phase h⟩
  · exact ⟨rfl, rfl, rfl, startDecode_phase h⟩

/-! ### A warning word by itself (R102, R231) -/

/-- A warning word is taken where the decoder raises warnings. -/
theorem onWarning_taken {s : State} (h : s.phase = some .dVal) (k : Warning) :
    onWarning k s = .next (raiseWarning k s) := by
  rw [onWarning, if_pos h, inPhase_of_phase h]

/-- Settles O28: each of the two words is a `raiseWarning` in `D_VAL`. -/
theorem warningWordLogsOnceAndPulses : Obligations.WarningWordLogsOnceAndPulses :=
  fun _ h => ⟨onWarning_taken h .zeroCount, onWarning_taken h .truncated⟩

end Sys2Proof.Machine
end

section
/-!
SUPPORT. Reset from any state (R260, R261), and that nothing an earlier operation left in the registers
shows in a later one (R40, R272): the core reads only registers that are live, so two states with the
same live part step to states with the same live part.
-/

namespace Sys2Proof.Machine

/-! ### Reset (R260, R261) -/

/-- While `rst` is asserted a step is the act of reset (R260). -/
theorem step_of_rst {s : State} (hr : s.rst = true) : step s = .next (takeReset s) := by
  simp [step, hr]

/-- Settles O2: `step_of_rst`, whose state holds the reset values by definition; an idle core without a
command waits for one. -/
theorem rstResetsFromAnyState : Obligations.RstResetsFromAnyState := by
  refine ⟨fun s hr => ⟨takeReset s, step_of_rst hr, rfl, rfl, rfl, rfl, rfl, rfl, rfl, rfl, rfl, rfl, rfl,
    hr⟩, fun s hp hr hh => ?_⟩
  obtain ⟨hhold, -⟩ := waitingForAPartnerHoldsTheState s hr
  exact hhold (.inl hp) hh

/-! ### The live part of a state -/

/-- `a` where `c` holds, else the fixed value `d`. -/
def keepIf {α : Type} (c : Bool) (a d : α) : α := if c then a else d

@[simp] theorem keepIf_true {α : Type} (a d : α) : keepIf true a d = a := rfl
@[simp] theorem keepIf_false {α : Type} (a d : α) : keepIf false a d = d := rfl
@[simp] theorem keepIf_keepIf {α : Type} (c : Bool) (a d : α) :
    keepIf c (keepIf c a d) d = keepIf c a d := by cases c <;> rfl

/-- `ENC.val` and `ENC.cnt` are live while a run is in progress, which sets them when it opens (R143,
R146, R147). -/
@[simp] def EncSt.runOpen : EncSt → Bool
  | .eScan | .eEmitC | .eEmitV => true
  | .eIdle | .eFirst | .eHead => false

/-- `DEC.cnt` is live from the count byte of a record to its end (R173). -/
@[simp] def DecSt.countOpen : DecSt → Bool
  | .dVal | .dExp => true
  | .dIdle | .dCnt => false

/-- `DEC.val` is live while a record is expanded (R176). -/
@[simp] def DecSt.expanding : DecSt → Bool
  | .dExp => true
  | .dIdle | .dCnt | .dVal => false

/-- `s` with a fixed value in every register that is not live, whose value no step reads before the
register is written again (R40), and in the model's own counter of resets. `ENC.pend_v` and `ENC.fin`
are live in all of an encode operation, which sets them first (R141), and `ENC.pend_b` while `ENC.pend_v`
is set (R146). -/
def live (s : State) : State :=
  { s with
    encVal := keepIf s.encSt.runOpen s.encVal 0#8
    encCnt := keepIf s.encSt.runOpen s.encCnt 0#9
    encPendV := keepIf (s.encSt ≠ .eIdle) s.encPendV false
    encPendB := keepIf (s.encSt ≠ .eIdle) (keepIf s.encPendV s.encPendB 0#8) 0#8
    encFin := keepIf (s.encSt ≠ .eIdle) s.encFin .fNone
    decCnt := keepIf s.decSt.countOpen s.decCnt 0#8
    decVal := keepIf s.decSt.expanding s.decVal 0#8
    rstCount := 0 }

@[simp] theorem live_phase (s : State) : (live s).phase = s.phase := rfl
@[simp] theorem live_rst (s : State) : (live s).rst = s.rst := rfl
@[simp] theorem live_srcRest (s : State) : (live s).srcRest = s.srcRest := rfl
@[simp] theorem live_snkAns (s : State) : (live s).snkAns = s.snkAns := rfl
@[simp] theorem live_host (s : State) : (live s).host = s.host := rfl
@[simp] theorem live_warnPulse (s : State) : (live s).warnPulse = s.warnPulse := rfl
@[simp] theorem clearPulse_live (s : State) : clearPulse (live s) = live (clearPulse s) := rfl

theorem live_encVal {s : State} (h : s.encSt.runOpen = true) : (live s).encVal = s.encVal := if_pos h
theorem live_encCnt {s : State} (h : s.encSt.runOpen = true) : (live s).encCnt = s.encCnt := if_pos h
theorem live_encPendV {s : State} (h : s.encSt ≠ .eIdle) : (live s).encPendV = s.encPendV := by
  simp [live, h]
theorem live_encFin {s : State} (h : s.encSt ≠ .eIdle) : (live s).encFin = s.encFin := by
  simp [live, h]
theorem live_decCnt {s : State} (h : s.decSt.countOpen = true) : (live s).decCnt = s.decCnt := if_pos h
theorem live_decVal {s : State} (h : s.decSt.expanding = true) : (live s).decVal = s.decVal := if_pos h

@[simp] theorem live_live (s : State) : live (live s) = live s := by
  cases h : s.encSt <;> simp [live, h]

/-! ### The shared operations read the live part only

Each operation does the same to a state and to its live part, up to registers that are not live after it. -/

theorem live_finish_live (o : OpOutcome) (s : State) :
    live (finish o (live s)) = live (finish o s) := rfl

theorem live_openRun_live (b : Byte) {s : State} (h : s.encSt ≠ .eIdle) :
    live (openRun b (live s)) = live (openRun b s) := by
  simp [live, openRun, h]

theorem live_closeRun_live {s : State} (h : s.encSt = .eScan) :
    live (closeRun (live s)) = live (closeRun s) := by
  simp [live, closeRun, h]

theorem live_scanToken_live (t : Token) {s : State} (h : s.encSt = .eScan) :
    live (scanToken t (live s)) = live (scanToken t s) := by
  cases t with
  | data b =>
    simp only [scanToken, live_encVal (s := s) (by simp [h])]
    split_ifs <;> simp [live, closeRun, h]
  | eos | err => simp [live, scanToken, closeRun, h]

theorem live_valueToken_live (t : Token) {s : State} (he : s.encSt = .eIdle) (hd : s.decSt = .dVal) :
    live (valueToken t (live s)) = live (valueToken t s) := by
  cases t with
  | data b =>
    simp only [valueToken, live_decCnt (s := s) (by simp [hd])]
    split_ifs <;> simp [live, raiseWarning, he]
  | eos | err => rfl

theorem live_takeToken_live (t : Token) (s : State) :
    live (takeToken t (live s)) = live (takeToken t s) := by
  cases hp : s.phase with
  | none => simp [takeToken, hp]
  | some p =>
    cases p
    case eFirst =>
      obtain ⟨-, he, -⟩ := (phase_eq_eFirst s).1 hp
      simp only [takeToken, live_phase, hp]
      cases t with
      | data b => exact live_openRun_live b (by simp [he])
      | eos | err => rfl
    case eHead =>
      obtain ⟨-, he, -⟩ := (phase_eq_eHead s).1 hp
      simp only [takeToken, live_phase, hp, live_encPendV (s := s) (by simp [he])]
      split_ifs
      · exact live_live s
      · cases t with
        | data b => exact live_openRun_live b (by simp [he])
        | eos | err => rfl
    case eScan =>
      obtain ⟨-, he, -⟩ := (phase_eq_eScan s).1 hp
      simp only [takeToken, live_phase, hp, live_encCnt (s := s) (by simp [he])]
      split_ifs
      · exact live_live s
      · exact live_scanToken_live t he
    case dCnt =>
      obtain ⟨-, he, -⟩ := (phase_eq_dCnt s).1 hp
      simp only [takeToken, live_phase, hp]
      cases t with
      | data b => simp [live, he]
      | eos | err => rfl
    case dVal =>
      obtain ⟨-, he, hd⟩ := (phase_eq_dVal s).1 hp
      simpa [takeToken, hp] using live_valueToken_live t he hd
    all_goals simp [takeToken, hp]

theorem live_afterPair_live {s : State} (h : s.encSt = .eEmitV) :
    live (afterPair (live s)) = live (afterPair s) := by
  simp only [afterPair, live_encFin (s := s) (by simp [h])]
  cases s.encFin with
  | fEos | fErr => rfl
  | fNone => simp [live, h]

theorem live_countOff_live {s : State} (he : s.encSt = .eIdle) (hd : s.decSt = .dExp) :
    live (countOff (live s)) = live (countOff s) := by
  by_cases hz : dec s.decCnt = 0#8 <;> simp [live, countOff, he, hd, hz]

theorem live_answerOk_live (s : State) : live (answerOk (live s)) = live (answerOk s) := by
  cases hp : s.phase with
  | none => simp [answerOk, hp]
  | some p =>
    cases p
    case eEmitC =>
      obtain ⟨-, he, -⟩ := (phase_eq_eEmitC s).1 hp
      simp only [answerOk, live_phase, hp, live_encCnt (s := s) (by simp [he])]
      split_ifs
      · simp [live, acknowledge, he]
      · exact live_live s
    case eEmitV =>
      obtain ⟨-, he, -⟩ := (phase_eq_eEmitV s).1 hp
      simp only [answerOk, live_phase, hp, live_encVal (s := s) (by simp [he])]
      exact live_afterPair_live (s := acknowledge s.encVal s) he
    case dExp =>
      obtain ⟨-, he, hd⟩ := (phase_eq_dExp s).1 hp
      simp only [answerOk, live_phase, hp, live_decVal (s := s) (by simp [hd])]
      exact live_countOff_live (s := acknowledge s.decVal s) he hd
    all_goals simp [answerOk, hp]

theorem live_snkValid (s : State) : snkValid (live s) = snkValid s := by
  cases hp : s.phase with
  | none => simp [snkValid, hp]
  | some p =>
    cases p
    case eEmitC =>
      obtain ⟨-, he, -⟩ := (phase_eq_eEmitC s).1 hp
      simp [snkValid, hp, live_encCnt (s := s) (by simp [he])]
    all_goals simp [snkValid, hp]

theorem live_answerFail_live (s : State) : live (answerFail (live s)) = live (answerFail s) := by
  simp only [answerFail_eq, live_snkValid]
  split_ifs
  · exact live_finish_live _ s
  · exact live_live s

theorem live_internalStep_live (s : State) : live (internalStep (live s)) = live (internalStep s) := by
  cases hp : s.phase with
  | none => simp [internalStep, hp]
  | some p =>
    cases p
    case eHead =>
      obtain ⟨-, he, -⟩ := (phase_eq_eHead s).1 hp
      simp only [internalStep, live_phase, hp, live_encPendV (s := s) (by simp [he])]
      split_ifs with hv
      · simp [live, openRun, he, hv]
      · exact live_live s
    case eScan =>
      obtain ⟨-, he, -⟩ := (phase_eq_eScan s).1 hp
      simp only [internalStep, live_phase, hp, live_encCnt (s := s) (by simp [he])]
      split_ifs
      · exact live_closeRun_live he
      · exact live_live s
    case eEmitC =>
      obtain ⟨-, he, -⟩ := (phase_eq_eEmitC s).1 hp
      simp only [internalStep, live_phase, hp, live_encCnt (s := s) (by simp [he])]
      split_ifs
      · exact live_live s
      · exact live_finish_live _ s
    all_goals simp [internalStep, hp]

theorem live_startEncode_live (s : State) : live (startEncode (live s)) = live (startEncode s) := by
  simp [live, startEncode, beginOperation]

theorem live_startDecode_live (s : State) : live (startDecode (live s)) = live (startDecode s) := by
  cases h : s.encSt <;> simp [live, startDecode, beginOperation, h]

theorem live_raiseWarning_live (k : Warning) (s : State) :
    live (raiseWarning k (live s)) = live (raiseWarning k s) := by
  rw [show raiseWarning k (live s) = live (raiseWarning k s) from rfl, live_live]

/-! ### The meanings read the live part only -/

/-- The answer of a meaning or a step with the live part of its state. -/
def liveAnswer : Host.Outcome State Fault Refusal → Host.Outcome State Fault Refusal
  | .next s => .next (live s)
  | .fault r => .fault r
  | .refused r => .refused r

theorem liveAnswer_inPhase {s t u : State} (h : live t = live u) :
    liveAnswer (inPhase (live s) t) = liveAnswer (inPhase s u) := by
  unfold inPhase
  rw [live_phase]
  cases s.phase with
  | none => rfl
  | some p => exact congrArg Host.Outcome.next h

/-- A result that may be held back by a condition on the live part. -/
theorem live_ite {c d : Prop} [Decidable c] [Decidable d] (hcd : c ↔ d) {s t u : State}
    (h : live t = live u) : live (if c then t else live s) = live (if d then u else s) := by
  by_cases hc : c
  · rw [if_pos hc, if_pos (hcd.1 hc), h]
  · rw [if_neg hc, if_neg (hc ∘ hcd.2), live_live]

theorem live_awaitsValue_iff (s : State) (c : Byte) :
    ((live s).phase = some .dVal ∧ (live s).decCnt = c) ↔ (s.phase = some .dVal ∧ s.decCnt = c) := by
  refine and_congr_right fun hp => ?_
  obtain ⟨-, -, hd⟩ := (phase_eq_dVal s).1 hp
  rw [live_decCnt (by simp [hd])]

/-- No instruction reads a register that is not live (R40, R272). -/
theorem liveAnswer_exec (i : Instr) (s : State) :
    liveAnswer (exec i (live s)) = liveAnswer (exec i s) := by
  cases i with
  | encode => exact liveAnswer_inPhase (live_ite Iff.rfl (live_startEncode_live s))
  | decode => exact liveAnswer_inPhase (live_ite Iff.rfl (live_startDecode_live s))
  | badmode0 | badmode3 | encodeNosrc | decodeNosrc | encodeNosnk | decodeNosnk =>
    exact liveAnswer_inPhase (live_ite Iff.rfl rfl)
  | zrun | run | halfRec | breakRec =>
    exact liveAnswer_inPhase (live_ite (live_awaitsValue_iff s _) (live_takeToken_live _ s))
  | endRec | failRec => exact liveAnswer_inPhase (live_ite Iff.rfl (live_takeToken_live _ s))
  | tokData | tokEos | tokErr | tokRsvd => exact liveAnswer_inPhase (live_takeToken_live _ s)
  | wrespOk => exact liveAnswer_inPhase (live_answerOk_live s)
  | wrespFail => exact liveAnswer_inPhase (live_answerFail_live s)
  | warnZeroCount | warnTruncated =>
    exact liveAnswer_inPhase (live_ite Iff.rfl (live_raiseWarning_live _ s))
  | status => exact liveAnswer_inPhase (live_live s)

/-! ### The step reads the live part only -/

theorem live_access (s : State) : access (live s) = access s := by
  cases hp : s.phase with
  | none => simp [access, hp]
  | some p =>
    cases p
    case eHead =>
      obtain ⟨-, he, -⟩ := (phase_eq_eHead s).1 hp
      simp [access, hp, live_encPendV (s := s) (by simp [he])]
    case eScan =>
      obtain ⟨-, he, -⟩ := (phase_eq_eScan s).1 hp
      simp [access, hp, live_encCnt (s := s) (by simp [he])]
    case eEmitC =>
      obtain ⟨-, he, -⟩ := (phase_eq_eEmitC s).1 hp
      simp [access, hp, live_encCnt (s := s) (by simp [he])]
    all_goals simp [access, hp]

theorem live_readToken (s : State) (t : TokWord) : readToken (live s) t = readToken s t := by
  cases hp : s.phase with
  | none => simp [readToken, hp]
  | some p =>
    cases p
    case dVal =>
      obtain ⟨-, -, hd⟩ := (phase_eq_dVal s).1 hp
      simp [readToken, hp, live_decCnt (s := s) (by simp [hd])]
    all_goals simp [readToken, hp]

/-- What a step runs, with the live part of its state. -/
def liveFetched : Fetched → Fetched
  | .word i s => .word i (live s)
  | .internal => .internal
  | .stuck => .stuck

theorem live_fetch (s : State) : fetch (live s) = liveFetched (fetch s) := by
  unfold fetch
  rw [live_access]
  cases access s with
  | none => rfl
  | some a =>
    cases a with
    | command =>
      simp only [live_host]
      cases s.host <;> rfl
    | source =>
      simp only [live_srcRest]
      cases s.srcRest with
      | nil => rfl
      | cons w ws => exact congrArg (Fetched.word · _) (live_readToken s w)
    | sink =>
      simp only [live_snkAns]
      cases s.snkAns <;> rfl
    | internal => rfl

/-- No step reads a register that is not live (R40, R272). -/
theorem liveAnswer_step {s : State} (hr : s.rst = false) :
    liveAnswer (step (live s)) = liveAnswer (step s) := by
  simp only [step, live_rst, hr, clearPulse_live, live_fetch]
  cases fetch (clearPulse s) with
  | word i t => exact liveAnswer_exec i t
  | internal => exact congrArg Host.Outcome.next (live_internalStep_live (clearPulse s))
  | stuck => rfl

/-! ### Two states with the same live part -/

/-- A step from one of the ten phases leads to one of them (R32). -/
theorem step_phase {s t : State} (hp : s.phase ≠ none) (h : step s = .next t) : t.phase ≠ none := by
  obtain ⟨u, hu, hpu⟩ := step_answers hp
  obtain rfl : u = t := Host.Outcome.next.inj (hu.symm.trans h)
  exact hpu

/-- States with the same live part take steps to states with the same live part. -/
theorem step_of_live_eq {s₁ s₂ : State} (hlive : live s₁ = live s₂) (hr : s₁.rst = false)
    (hp : s₁.phase ≠ none) :
    ∃ t₁ t₂, step s₁ = .next t₁ ∧ step s₂ = .next t₂ ∧ live t₁ = live t₂ ∧ t₁.rst = false ∧
      t₁.phase ≠ none := by
  have hr₂ : s₂.rst = false := (congrArg State.rst hlive).symm.trans hr
  have hp₂ : s₂.phase ≠ none := fun hn => hp ((congrArg State.phase hlive).trans hn)
  obtain ⟨t₁, h₁, hp₁⟩ := step_answers hp
  obtain ⟨t₂, h₂, -⟩ := step_answers hp₂
  have hsteps : liveAnswer (step s₁) = liveAnswer (step s₂) := by
    rw [← liveAnswer_step hr, hlive, liveAnswer_step hr₂]
  rw [h₁, h₂] at hsteps
  exact ⟨t₁, t₂, h₁, h₂, Host.Outcome.next.inj hsteps, step_rst hr h₁, hp₁⟩

/-- So do runs of any length. -/
theorem runSteps_of_live_eq (n : Nat) {s₁ s₂ : State} (hlive : live s₁ = live s₂)
    (hr : s₁.rst = false) (hp : s₁.phase ≠ none) :
    ∃ t₁ t₂, runSteps n s₁ = .next t₁ ∧ runSteps n s₂ = .next t₂ ∧ live t₁ = live t₂ := by
  induction n generalizing s₁ s₂ with
  | zero => exact ⟨s₁, s₂, rfl, rfl, hlive⟩
  | succ n ih =>
    obtain ⟨t₁, t₂, h₁, h₂, ht, hrt, hpt⟩ := step_of_live_eq hlive hr hp
    rw [runSteps_succ n h₁, runSteps_succ n h₂]
    exact ih ht hrt hpt

/-! ### The first acceptance -/

/-- `s` as a command's meaning finds it: the command taken, its streams attached (R200, R263). -/
def launched (l : Launch) (ls : List Launch) (s : State) : State := attach l ls (clearPulse s)

section Launched
variable {s₁ s₂ : State} (hr : s₁.rst = s₂.rst) (l : Launch) (ls : List Launch)
include hr

/-- A refused `START` leaves no register live (R40, R206). -/
theorem live_refuseStart_launched (o : OpOutcome) :
    live (refuseStart o (launched l ls s₁)) = live (refuseStart o (launched l ls s₂)) := by
  simp [live, refuseStart, finish, beginOperation, launched, attach, clearPulse, hr]

/-- The encoder starts with `ENC.pend_v` and `ENC.fin` set and no other register live (R141). -/
theorem live_startEncode_launched (hd₁ : s₁.decSt = .dIdle) (hd₂ : s₂.decSt = .dIdle) :
    live (startEncode (launched l ls s₁)) = live (startEncode (launched l ls s₂)) := by
  simp [live, startEncode, beginOperation, launched, attach, clearPulse, hr, hd₁, hd₂]

/-- The decoder starts with no register live (R171). -/
theorem live_startDecode_launched (he₁ : s₁.encSt = .eIdle) (he₂ : s₂.encSt = .eIdle) :
    live (startDecode (launched l ls s₁)) = live (startDecode (launched l ls s₂)) := by
  simp [live, startDecode, beginOperation, launched, attach, clearPulse, hr, he₁, he₂]

end Launched

/-- Ready cores that are offered one command are alike in their live part from its acceptance on,
whatever they held before (R200, R208, R272). -/
theorem step_of_same_command {s₁ s₂ : State} (h₁ : Ready s₁) (h₂ : Ready s₂) (hr₁ : s₁.rst = false)
    (hr₂ : s₂.rst = false) {l : Launch} {ls : List Launch} (hh₁ : s₁.host = l :: ls)
    (hh₂ : s₂.host = l :: ls) :
    ∃ t₁ t₂, step s₁ = .next t₁ ∧ step s₂ = .next t₂ ∧ live t₁ = live t₂ := by
  have hr : s₁.rst = s₂.rst := hr₁.trans hr₂.symm
  obtain ⟨he₁, hd₁⟩ := units_idle_of_ready h₁
  obtain ⟨he₂, hd₂⟩ := units_idle_of_ready h₂
  rw [step_of_command hr₁ h₁ hh₁, step_of_command hr₂ h₂ hh₂, exec_decodeCmd, exec_decodeCmd,
    onCommand_of_ready (s := attach l ls (clearPulse s₁)) h₁,
    onCommand_of_ready (s := attach l ls (clearPulse s₂)) h₂]
  refine ⟨_, _, rfl, rfl, ?_⟩
  split_ifs
  · exact live_refuseStart_launched hr l ls _
  · exact live_refuseStart_launched hr l ls _
  · exact live_refuseStart_launched hr l ls _
  · exact live_startEncode_launched hr l ls hd₁ hd₂
  · exact live_startDecode_launched hr l ls he₁ he₂

/-! ### What an execution shows (R12) -/

theorem live_observe (s : State) : observe (live s) = observe s := rfl
theorem live_statusWord (s : State) : statusWord (live s) = statusWord s := rfl

/-- The live part holds everything an execution shows. -/
theorem shown_eq_of_live_eq {s₁ s₂ : State} (h : live s₁ = live s₂) :
    observe s₁ = observe s₂ ∧ statusWord s₁ = statusWord s₂ ∧ s₁.warnPulse = s₂.warnPulse :=
  ⟨by rw [← live_observe, h, live_observe], by rw [← live_statusWord, h, live_statusWord],
    by rw [← live_warnPulse, h, live_warnPulse]⟩

/-- Settles O60: the first acceptance makes the live parts equal (`step_of_same_command`), every later
step keeps them so (`runSteps_of_live_eq`), and what is shown is in them. -/
theorem nothingLeaksBetweenOperations : Obligations.NothingLeaksBetweenOperations := by
  intro s₁ s₂ l ls n h₁ h₂ hr₁ hr₂ hh₁ hh₂
  obtain ⟨u₁, u₂, hu₁, hu₂, hlive⟩ := step_of_same_command h₁ h₂ hr₁ hr₂ hh₁ hh₂
  have hp : u₁.phase ≠ none := step_phase (phase_of_ready h₁) hu₁
  obtain ⟨t₁, t₂, ht₁, ht₂, hlive'⟩ := runSteps_of_live_eq n hlive (step_rst hr₁ hu₁) hp
  exact ⟨t₁, t₂, (runSteps_succ n hu₁).trans ht₁, (runSteps_succ n hu₂).trans ht₂,
    shown_eq_of_live_eq hlive'⟩

end Sys2Proof.Machine
end
